-- ==== Sys2Proof/Word.lean ====
section
/-! DEFINITION. The words of the block that the spec treats as bits. All values are unsigned and bit 0 is the least
significant (R14). Arithmetic on them is in Machine/Ops.lean. -/

namespace Sys2Proof

/-- The 8-bit event word (R60). -/
abbrev EventWord := BitVec 8

/-- The 32-bit status view word (R35). -/
abbrev StatusWord := BitVec 32

/-- The 4-bit tick counter register (R24). -/
abbrev TickCounter := BitVec 4

/-- The 6-bit register of the light-colour output pins (R32). -/
abbrev LightPins := BitVec 6

end Sys2Proof
end

