-- ==== Sys2Proof/Config.lean ====
section
/-! DEFINITION. The implementation parameters (00_scope.md, R4-R13) as plain data, their constraints (R5-R8, R11), and the
two OPEN ones of the state after reset as opaque constants. Their default values are in Machine/Tables.lean. -/

namespace Sys2Proof

/-- The durations of phases 0, 1, 2 and 3 in UNITs: one vector `{x0, x1, x2, x3}` of R111. -/
structure PhaseDurations where
  phase0 : Nat
  phase1 : Nat
  phase2 : Nat
  phase3 : Nat
deriving DecidableEq, Repr

/-- One row of DUR_TABLE: the vectors by the right snapshot level (R111, R112). -/
structure DurRow where
  normal : PhaseDurations
  intense : PhaseDurations
  highIntense : PhaseDurations
deriving DecidableEq, Repr

/-- DUR_TABLE: the rows by the left snapshot level (R8, R111). -/
structure DurTable where
  normal : DurRow
  intense : DurRow
  highIntense : DurRow
deriving DecidableEq, Repr

/-- The four entries of one vector. -/
def PhaseDurations.entries (v : PhaseDurations) : List Nat :=
  [v.phase0, v.phase1, v.phase2, v.phase3]

/-- The twelve entries of one row. -/
def DurRow.entries (r : DurRow) : List Nat :=
  r.normal.entries ++ r.intense.entries ++ r.highIntense.entries

/-- The 36 entries of the table. -/
def DurTable.entries (t : DurTable) : List Nat :=
  t.normal.entries ++ t.intense.entries ++ t.highIntense.entries

/-- The parameters, every row of the table "Implementation parameters" (00_scope.md). They are configuration: no event
writes one (R13). `scale` (SCALE, R9) and `tickRate` (TICK_RATE in Hz, R12) are read by no rule; their types are a
DESIGN CHOICE (log 3). -/
structure Params where
  /-- `CNT_W` (R5) -/
  cntW : Nat
  /-- `DEBOUNCE_THRESHOLD`, written `T` (R6) -/
  threshold : Nat
  /-- `MOD_FAST` (R7) -/
  modFast : Nat
  /-- `MOD_MEDIUM` (R7) -/
  modMedium : Nat
  /-- `MOD_SLOW` (R7) -/
  modSlow : Nat
  /-- `TICK_MOD` (R7) -/
  tickMod : Nat
  /-- `DUR_TABLE` (R8) -/
  durTable : DurTable
  /-- `DUR_W` (R8) -/
  durW : Nat
  /-- `SCALE` (R9) -/
  scale : Nat
  /-- `OFF_ADVANCE` (R10) -/
  offAdvance : Bool
  /-- `LAST_ACCEPTED_RESET` (R11) -/
  lastAcceptedReset : Nat
  /-- `TICK_RATE` (R12) -/
  tickRate : Nat
deriving DecidableEq, Repr

/-- The constraints: R5 (`CNT_W >= 1`), R6 (`T < 2^CNT_W`), R7 (moduli `>= 1`, `TICK_MOD <= 16`), R8 (every table entry
between 1 and `2^DUR_W - 1`), R11 (`LAST_ACCEPTED_RESET` is a `CNT_W`-bit value). -/
def Params.valid (p : Params) : Bool :=
  decide (1 ≤ p.cntW) && decide (p.threshold < 2 ^ p.cntW) && decide (p.lastAcceptedReset < 2 ^ p.cntW)
    && decide (1 ≤ p.modFast) && decide (1 ≤ p.modMedium) && decide (1 ≤ p.modSlow)
    && decide (1 ≤ p.tickMod) && decide (p.tickMod ≤ 16)
    && p.durTable.entries.all (fun e => decide (1 ≤ e) && decide (e < 2 ^ p.durW))

/-- Parameters that meet their constraints. A configuration that breaks one gives no run at all (R131 (d), D28), so no
state holds one (log 15). -/
structure Configuration where
  params : Params
  valid : params.valid = true
deriving DecidableEq, Repr

namespace Config

/-- `DEBOUNCE_THRESHOLD` of the block after reset: OPEN (R6, D9), a value of the default 32-bit width (log 2). -/
opaque debounceThreshold : BitVec 32

/-- `SCALE` of the block after reset: OPEN (R9, D18) (log 3). -/
opaque scale : Nat

end Config

end Sys2Proof
end

