-- ==== Sys2Proof/Syntax.lean ====
section
/-! DEFINITION. The block's events as syntax: one constructor of `Instr` per row of spec/opcode_table.json (R67), their
operands, what an event returns (R16, R34), the input transaction that carries one (R60), and the agents that present
them (R4). -/

namespace Sys2Proof

/-- The directions, R18. -/
inductive Dir where
  | left
  | right
deriving DecidableEq, Repr

/-- The other direction. -/
def Dir.other : Dir → Dir
  | .left => .right
  | .right => .left

/-- IntensityLevel (R21, R64). Code 3 is no level (R69), so it has no constructor (log 10). -/
inductive Level where
  | normal
  | intense
  | highIntense
deriving DecidableEq, Repr

/-- BlinkRate (R22, R65). -/
inductive Rate where
  | off
  | slow
  | medium
  | fast
deriving DecidableEq, Repr

/-- TrafficPhase, "an ordinal `0..3`" (R29); its addition wraps modulo 4. -/
abbrev Phase := Fin 4

/-- The six lights, in the order of their bits in `lights` (R32). -/
inductive Light where
  | redLeft
  | yellowLeft
  | greenLeft
  | redRight
  | yellowRight
  | greenRight
deriving DecidableEq, Repr

/-- The ten events of R67. `now` of SERVICE is the operand of the separate operand bus (R60, R62): the block reads it as a
`CNT_W`-bit value (Machine/Operands.lean). -/
inductive Instr where
  | nop
  | sense (d : Dir) (v : Bool)
  | service (d : Dir) (now : Nat)
  | tick
  | unit
  | set (d : Dir) (lvl : Level)
  | clear
  | get (d : Dir)
  | status
  | reset
deriving DecidableEq, Repr

/-- One input transaction: the event word and the value on the operand bus, which only SERVICE reads (R36, R60). -/
structure Event where
  word : EventWord
  now : Nat
deriving DecidableEq, Repr

/-- The values an event returns (R16, R34): SERVICE `accepted`, GET a 2-bit level code, STATUS the status view word. -/
inductive Output where
  | accepted (b : Bool)
  | level (code : BitVec 2)
  | status (w : StatusWord)
deriving DecidableEq, Repr

/-- The five event sources, R4. -/
inductive Agent where
  | edge (d : Dir)
  | ticker
  | timeBase
  | host
deriving DecidableEq, Repr

/-- The agent that presents an event (R4, R132). -/
def Instr.agent : Instr → Agent
  | .sense d _ => .edge d
  | .service d _ => .edge d
  | .tick => .ticker
  | .unit => .timeBase
  | .nop => .host
  | .set _ _ => .host
  | .clear => .host
  | .get _ => .host
  | .status => .host
  | .reset => .host

end Sys2Proof
end

