-- ==== Sys2Proof/WellFormed.lean ====
section
/-! DEFINITION. Which terms of `Instr` and `Event` a block with given parameters can be presented with. Directions, pin
levels and intensity levels are well formed by their types; the one check left is the width of the operand bus. -/

namespace Sys2Proof

/-- `now` is a `CNT_W`-bit unsigned value (R60, R61). -/
def Params.nowFits (p : Params) (now : Nat) : Bool :=
  decide (now < 2 ^ p.cntW)

/-- An event is well formed when its operand fits the operand bus. -/
def Instr.wellFormed (p : Params) : Instr → Bool
  | .service _ now => p.nowFits now
  | .nop => true
  | .sense _ _ => true
  | .tick => true
  | .unit => true
  | .set _ _ => true
  | .clear => true
  | .get _ => true
  | .status => true
  | .reset => true

/-- An input transaction is well formed when the value on its operand bus fits the bus. -/
def Event.wellFormed (p : Params) (e : Event) : Bool :=
  p.nowFits e.now

end Sys2Proof
end

