-- ==== Sys2Proof/Decode.lean ====
section
/-! DEFINITION. The decoder, total on all 256 event words (R71), and after it the encoder, both written from the format of
R60 and R61, the codes of R63 and R64 and the opcode map of R67. -/

namespace Sys2Proof

/-! Field extraction (R61). -/

/-- `op = w[7:4]` -/
def opField (w : EventWord) : BitVec 4 := w.extractLsb' 4 4

/-- `z = w[3]` -/
def zField (w : EventWord) : Bool := w.getLsbD 3

/-- `d = w[2]` -/
def dField (w : EventWord) : Bool := w.getLsbD 2

/-- `lvl = w[1:0]` -/
def lvlField (w : EventWord) : BitVec 2 := w.extractLsb' 0 2

/-- `v = w[0]` -/
def vField (w : EventWord) : Bool := w.getLsbD 0

/-! Value codes (R63, R64, R65). -/

/-- Left is 0 and right is 1 (R63). -/
def Dir.bit : Dir → Bool
  | .left => false
  | .right => true

/-- The direction a direction bit names (R63). -/
def dirOfBit (b : Bool) : Dir :=
  if b then .right else .left

/-- Normal = 0, Intense = 1, HighIntense = 2 (R64). -/
def Level.code : Level → BitVec 2
  | .normal => 0#2
  | .intense => 1#2
  | .highIntense => 2#2

/-- The level of a code; code 3 is reserved (R64). -/
def levelOfCode (c : BitVec 2) : Option Level :=
  if c = 0#2 then some .normal
  else if c = 1#2 then some .intense
  else if c = 2#2 then some .highIntense
  else none

/-- Off = 0, Slow = 1, Medium = 2, Fast = 3; no port carries it (R65). -/
def Rate.code : Rate → BitVec 2
  | .off => 0#2
  | .slow => 1#2
  | .medium => 2#2
  | .fast => 3#2

/-! The opcode map (R67). -/

/-- The ten operations of R67. -/
inductive Opcode where
  | nop
  | sense
  | service
  | tick
  | unit
  | set
  | clear
  | get
  | status
  | reset
deriving DecidableEq, Repr

/-- One row of the opcode map: a word `w` is of this row when `w & mask = pattern`. -/
structure OpcodeRow where
  opcode : Opcode
  pattern : EventWord
  mask : EventWord
deriving DecidableEq, Repr

/-- The columns "match" and "mask" of R67. -/
def opcodeMap : List OpcodeRow :=
  [ ⟨.nop, 0x00#8, 0xFF#8⟩,
    ⟨.sense, 0x10#8, 0xFA#8⟩,
    ⟨.service, 0x20#8, 0xFB#8⟩,
    ⟨.tick, 0x30#8, 0xFF#8⟩,
    ⟨.unit, 0x40#8, 0xFF#8⟩,
    ⟨.set, 0x50#8, 0xF8#8⟩,
    ⟨.clear, 0x60#8, 0xFF#8⟩,
    ⟨.get, 0x70#8, 0xFB#8⟩,
    ⟨.status, 0x80#8, 0xFF#8⟩,
    ⟨.reset, 0xFF#8, 0xFF#8⟩ ]

/-- `w` matches a row of the opcode map (R71). -/
def OpcodeRow.hits (r : OpcodeRow) (w : EventWord) : Bool :=
  w &&& r.mask == r.pattern

/-- The row that a word matches, if any. -/
def opcodeOf (w : EventWord) : Option Opcode :=
  (opcodeMap.find? (fun r => r.hits w)).map (·.opcode)

/-! The decoder. -/

/-- What the decoder answers: an event, or `Illegal(w)` (R71). -/
inductive Decoded where
  | event (i : Instr)
  | illegal (w : EventWord)
deriving DecidableEq, Repr

/-- `decode(w)` of R71, with the operand bus beside the word. A SET with level code 3 is illegal (R69). -/
def decode (e : Event) : Decoded :=
  match opcodeOf e.word with
  | none => .illegal e.word
  | some .nop => .event .nop
  | some .sense => .event (.sense (dirOfBit (dField e.word)) (vField e.word))
  | some .service => .event (.service (dirOfBit (dField e.word)) e.now)
  | some .tick => .event .tick
  | some .unit => .event .unit
  | some .set =>
    match levelOfCode (lvlField e.word) with
    | some l => .event (.set (dirOfBit (dField e.word)) l)
    | none => .illegal e.word
  | some .clear => .event .clear
  | some .get => .event (.get (dirOfBit (dField e.word)))
  | some .status => .event .status
  | some .reset => .event .reset

/-- The decoder's answer as an optional instruction. -/
def Decoded.instr? : Decoded → Option Instr
  | .event i => some i
  | .illegal _ => none

/-! The encoder. -/

/-- The one format of an event word, `op[7:4] z[3] d[2] a[1:0]` with `z = 0` (R60). -/
def eventWord (op : BitVec 4) (d : Bool) (a : BitVec 2) : EventWord :=
  op ++ 0#1 ++ BitVec.ofBool d ++ a

/-- The input transaction that presents an event (R60, R67). Events without an operand leave the operand bus at 0, which
nothing reads. -/
def encode : Instr → Event
  | .nop => ⟨eventWord 0x0#4 false 0#2, 0⟩
  | .sense d v => ⟨eventWord 0x1#4 d.bit (0#1 ++ BitVec.ofBool v), 0⟩
  | .service d now => ⟨eventWord 0x2#4 d.bit 0#2, now⟩
  | .tick => ⟨eventWord 0x3#4 false 0#2, 0⟩
  | .unit => ⟨eventWord 0x4#4 false 0#2, 0⟩
  | .set d lvl => ⟨eventWord 0x5#4 d.bit lvl.code, 0⟩
  | .clear => ⟨eventWord 0x6#4 false 0#2, 0⟩
  | .get d => ⟨eventWord 0x7#4 d.bit 0#2, 0⟩
  | .status => ⟨eventWord 0x8#4 false 0#2, 0⟩
  | .reset => ⟨0xFF#8, 0⟩

/-! The words of the opcode table. -/

/-- The input transaction whose bits are `w`: the event word in bits 7..0 and, where more bits are given, the operand bus
in the bits above them (DESIGN CHOICE, log 11). Bits from `nbits` on are 0. -/
def eventOfBits (nbits w : Nat) : Event :=
  ⟨BitVec.ofNat 8 (w % 2 ^ nbits), w % 2 ^ nbits / 2 ^ 8⟩

/-- The instruction the decoder reads from a word of the opcode table. -/
def decodeTableWord (nbits w : Nat) : Option Instr :=
  (decode (eventOfBits nbits w)).instr?

end Sys2Proof
end

