-- ==== Sys2Proof/Machine/Tables.lean ====
section
/-! DEFINITION. The value tables of the spec: blink rates and moduli (R22, R100), the level cycle (R82), the phase
sequence and its light patterns (R110, R66), the lookup in DUR_TABLE (R111), and the default parameters (00_scope.md). -/

namespace Sys2Proof.Machine

open Sys2Proof

/-- `rateOf` (R22). -/
def rateOf : Level → Rate
  | .normal => .off
  | .intense => .medium
  | .highIntense => .fast

/-- `modulus(rate)` (R100): not defined for Off. Slow is kept for totality (R104). -/
def modulus (p : Params) : Rate → Option Nat
  | .off => none
  | .slow => some p.modSlow
  | .medium => some p.modMedium
  | .fast => some p.modFast

/-- `nextLevel`, the cyclic advance Normal → Intense → HighIntense → Normal (R82). -/
def nextLevel : Level → Level
  | .normal => .intense
  | .intense => .highIntense
  | .highIntense => .normal

/-- `nextPhase(p) = (p + 1) mod 4` (R110). -/
def nextPhase (q : Phase) : Phase := q + 1

/-- Phases 0 and 2 start a half of the cycle (R110, R113). -/
def startsHalf (q : Phase) : Bool :=
  q == 0 || q == 2

/-- `pattern(phase)` (R66). -/
def pattern : Phase → LightPins
  | 0 => 0x21#6
  | 1 => 0x11#6
  | 2 => 0x0C#6
  | 3 => 0x0A#6

/-- The bit of `lights` that drives a light (R32, D7). -/
def lightBit : Light → Nat
  | .redLeft => 0
  | .yellowLeft => 1
  | .greenLeft => 2
  | .redRight => 3
  | .yellowRight => 4
  | .greenRight => 5

/-- The duration of one phase in a vector (R111). -/
def phaseDuration (v : PhaseDurations) : Phase → Nat
  | 0 => v.phase0
  | 1 => v.phase1
  | 2 => v.phase2
  | 3 => v.phase3

/-- The row of DUR_TABLE for a left level (R111). -/
def durRow (t : DurTable) : Level → DurRow
  | .normal => t.normal
  | .intense => t.intense
  | .highIntense => t.highIntense

/-- The vector of a row for a right level (R111). -/
def durVector (r : DurRow) : Level → PhaseDurations
  | .normal => r.normal
  | .intense => r.intense
  | .highIntense => r.highIntense

/-- `dur(a, b, p) = DUR_TABLE[a][b][p]`, `a` the left and `b` the right level (R111). -/
def dur (t : DurTable) (a b : Level) (q : Phase) : Nat :=
  phaseDuration (durVector (durRow t a) b) q

/-- The default DUR_TABLE (R112). -/
def defaultDurTable : DurTable :=
  { normal :=
      { normal := ⟨15, 5, 15, 5⟩, intense := ⟨30, 5, 10, 5⟩, highIntense := ⟨50, 5, 10, 5⟩ },
    intense :=
      { normal := ⟨10, 5, 30, 5⟩, intense := ⟨15, 5, 15, 5⟩, highIntense := ⟨30, 5, 10, 5⟩ },
    highIntense :=
      { normal := ⟨10, 5, 50, 5⟩, intense := ⟨10, 5, 30, 5⟩, highIntense := ⟨15, 5, 15, 5⟩ } }

/-- The default parameters (00_scope.md, the table), for given values of the two OPEN ones, DEBOUNCE_THRESHOLD and SCALE. -/
def defaultParams (threshold scale : Nat) : Params :=
  { cntW := 32, threshold := threshold, modFast := 3, modMedium := 8, modSlow := 6, tickMod := 12,
    durTable := defaultDurTable, durW := 8, scale := scale, offAdvance := true, lastAcceptedReset := 0,
    tickRate := 6250 }

/-- The constraints of R5-R8 and R11, one by one. -/
theorem valid_iff (p : Params) :
    p.valid = true ↔
      1 ≤ p.cntW ∧ p.threshold < 2 ^ p.cntW ∧ p.lastAcceptedReset < 2 ^ p.cntW ∧ 1 ≤ p.modFast ∧ 1 ≤ p.modMedium
        ∧ 1 ≤ p.modSlow ∧ 1 ≤ p.tickMod ∧ p.tickMod ≤ 16 ∧ ∀ e ∈ p.durTable.entries, 1 ≤ e ∧ e < 2 ^ p.durW := by
  simp [Params.valid, and_assoc]

/-- The defaults meet the constraints for every threshold of the default width. -/
theorem defaultParams_valid (threshold scale : Nat) (h : threshold < 2 ^ 32) :
    (defaultParams threshold scale).valid = true := by
  have htable : ∀ e ∈ defaultDurTable.entries, 1 ≤ e ∧ e < 2 ^ 8 := by decide
  exact (valid_iff _).2 ⟨by simp [defaultParams], h, by simp [defaultParams], by simp [defaultParams],
    by simp [defaultParams], by simp [defaultParams], by simp [defaultParams], by simp [defaultParams], htable⟩

/-- The default configuration for given values of the OPEN parameters. -/
def defaultConfiguration (threshold scale : Nat) (h : threshold < 2 ^ 32) : Configuration :=
  ⟨defaultParams threshold scale, defaultParams_valid threshold scale h⟩

end Sys2Proof.Machine
end

