-- ==== Sys2Proof/Machine/State.lean ====
section
/-! DEFINITION. The machine's state as plain data, the reasons a step can stop, and the state after reset. The registers
are exactly the inventory of 10_state.md (R20); `config`, `events` and `out` are the block's inputs and its returned-value
port, which the host's step relation has no other place for (logs 1, 5, 7). -/

namespace Sys2Proof.Machine

open Sys2Proof

/-- The registers that have one copy per direction (R18, R39). -/
@[ext]
structure DirState where
  /-- `level[d]`, R21 -/
  level : Level
  /-- `indicatorOn[d]`, R23 -/
  indicatorOn : Bool
  /-- `tickCounter[d]`, R24 -/
  tickCounter : TickCounter
  /-- `ind_pin[d]`, an output pin, R25 -/
  indPin : Bool
  /-- `last[d]`, R26: below `2^CNT_W` in every reachable state (log 9) -/
  last : Nat
  /-- `latch[d]`, R27 -/
  latch : Bool
  /-- `sensePrev[d]`, R28 -/
  sensePrev : Bool
deriving DecidableEq, Repr

/-- The state: the registers of 10_state.md (R20), then the inputs and the returned-value port. -/
@[ext]
structure State where
  /-- The parameters, with their validity (R13): no event changes them. -/
  config : Configuration
  /-- The left copies of the per-direction registers. -/
  left : DirState
  /-- The right copies. -/
  right : DirState
  /-- `phase`, R29 -/
  phase : Phase
  /-- `remaining`, R30: between 1 and `2^DUR_W - 1` in every reachable state (log 9) -/
  remaining : Nat
  /-- `snapL`, R31 -/
  snapL : Level
  /-- `snapR`, R31 -/
  snapR : Level
  /-- `lights`, the light output pins, R32 -/
  lights : LightPins
  /-- The events that wait at the input, the next one first (R36, R48). -/
  events : List Event
  /-- The returned-value port: what the last event that completed returned (R16, R37; logs 7 and 22). -/
  out : Option Output
deriving DecidableEq, Repr

/-- The one fault of the block (R130). -/
inductive Fault where
  /-- `IllegalEvent`, raised by `step` on an illegal event word; it records the word and leaves the state unchanged
  (R68, R69, R130). What hardware does there is OPEN (D23), so the stop is safe. -/
  | illegalEvent (w : EventWord)
deriving DecidableEq, Repr

/-- Why the model gives no meaning. -/
inductive Refusal where
  /-- Raised by an arm of `exec` that has no meaning yet: safe. -/
  | notModelled (mnemonic : String)
  /-- Raised by `powerOn` on parameters that break a constraint: no run exists (R131 (d), D28). Safe. -/
  | invalidConfiguration
deriving DecidableEq, Repr

/-- The fault's code number (R130). -/
def Fault.code : Fault → Nat
  | .illegalEvent _ => 1

/-- The per-direction registers after reset: the column "reset" of the inventory (10_state.md), R152. -/
def DirState.afterReset (p : Params) : DirState :=
  { level := .normal, indicatorOn := false, tickCounter := 0#4, indPin := false, last := p.lastAcceptedReset,
    latch := false, sensePrev := false }

/-- The state right after reset or power-on under a configuration (R150, R151, R152), with nothing waiting at the input. -/
def State.afterReset (c : Configuration) : State :=
  { config := c, left := DirState.afterReset c.params, right := DirState.afterReset c.params, phase := 0,
    remaining := dur c.params.durTable .normal .normal 0, snapL := .normal, snapR := .normal, lights := 0x21#6,
    events := [], out := none }

/-- The configuration of the state after reset: the spec's defaults, with the two OPEN parameters opaque (logs 2, 3, 4). -/
def resetConfiguration : Configuration :=
  defaultConfiguration Config.debounceThreshold.toNat Config.scale Config.debounceThreshold.isLt

/-- The machine right after reset. -/
def State.reset : State := State.afterReset resetConfiguration

end Sys2Proof.Machine
end

