-- ==== Sys2Proof/Machine/Operands.lean ====
section
/-! DEFINITION. The operand forms. Directions, pin levels and level codes come decoded (Decode.lean, R61); `now` comes on
the operand bus and is read here. -/

namespace Sys2Proof.Machine

open Sys2Proof

/-- The value SERVICE reads from the operand bus: the low `CNT_W` bits of what is presented (R62; R72: "taken mod
`2^CNT_W`", log 19). -/
def readNow (p : Params) (now : Nat) : Nat := now % 2 ^ p.cntW

end Sys2Proof.Machine
end

