-- ==== Sys2Proof/Machine/Ops.lean ====
section
/-! DEFINITION. The operations the events are made of, over one direction's registers and over the whole state. There is
no memory (R40) and no trap entry or return (R136, R137), so there is no operation for either. -/

namespace Sys2Proof.Machine

open Sys2Proof

/-! Parameters, directions and the returned-value port. -/

/-- The parameters of the machine. -/
def State.params (s : State) : Params := s.config.params

/-- The registers of one direction (R18). -/
def State.dir (s : State) : Dir → DirState
  | .left => s.left
  | .right => s.right

/-- Replace the registers of one direction. -/
def State.setDir (s : State) (d : Dir) (x : DirState) : State :=
  match d with
  | .left => { s with left := x }
  | .right => { s with right := x }

/-- End an event that returns `o`, or nothing (R16). -/
def State.returns (s : State) (o : Option Output) : State := { s with out := o }

/-! The input (R36, R48). -/

/-- What the host presents when no other event occurs: NOP (R120). -/
def idleEvent : Event := encode .nop

/-- The event the next step takes: the first that waits, or the idle event when none does (DEDUCED from R120, log 6). -/
def State.nextEvent (s : State) : Event :=
  match s.events with
  | [] => idleEvent
  | e :: _ => e

/-- Take the next event from the input. -/
def State.consume (s : State) : State := { s with events := s.events.tail }

/-- Put events before those that wait. -/
def State.present (s : State) (es : List Event) : State := { s with events := es ++ s.events }

/-! The debounce gate (40_debounce.md). -/

/-- `elapsed(now, last) = now -_CNT_W last`, unsigned modular subtraction (R15, R80). -/
def elapsed (cntW now last : Nat) : Nat :=
  (BitVec.ofNat cntW now - BitVec.ofNat cntW last).toNat

/-- `accept(now, last) = elapsed(now, last) > T`, strict (R81). -/
def accept (p : Params) (now last : Nat) : Bool :=
  decide (elapsed p.cntW now last > p.threshold)

/-! The intensity state (41_intensity.md). -/

/-- `WriteLevel`: write the level, and with Normal force the indicator off (R90). -/
def DirState.writeLevel (x : DirState) (n : Level) : DirState :=
  match n with
  | .normal => { x with level := .normal, indicatorOn := false, indPin := false }
  | .intense => { x with level := .intense }
  | .highIntense => { x with level := .highIntense }

/-- `WriteLevel(d, n)` on the state (R90). -/
def State.writeLevel (s : State) (d : Dir) (n : Level) : State :=
  s.setDir d ((s.dir d).writeLevel n)

/-! The blink engine (42_blink.md). -/

/-- `(tickCounter + 1) mod TICK_MOD` (R101). -/
def nextTick (p : Params) (c : TickCounter) : TickCounter :=
  BitVec.ofNat 4 ((c.toNat + 1) % p.tickMod)

/-- Toggle `indicatorOn` and write the pin to match it (R101, R103). -/
def DirState.toggle (x : DirState) : DirState :=
  { x with indicatorOn := !x.indicatorOn, indPin := !x.indicatorOn }

/-- The body of TICK for one direction (R101): the toggle test reads the counter before its increment. -/
def DirState.tick (p : Params) (x : DirState) : DirState :=
  match modulus p (rateOf x.level) with
  | none =>
    { x with
      indicatorOn := false
      indPin := false
      tickCounter := if p.offAdvance then nextTick p x.tickCounter else x.tickCounter }
  | some m =>
    { (if x.tickCounter.toNat % m = 0 then x.toggle else x) with tickCounter := nextTick p x.tickCounter }

/-! The traffic phase controller (43_phase.md). -/

/-- The reading of both levels at the start of a half (R113, R114). -/
def State.sampleLevels (s : State) : State :=
  { s with snapL := s.left.level, snapR := s.right.level }

/-- `Enter(q)` (R113). -/
def State.enter (s : State) (q : Phase) : State :=
  let t := if startsHalf q then s.sampleLevels else s
  { t with phase := q, lights := pattern q, remaining := dur s.params.durTable t.snapL t.snapR q }

end Sys2Proof.Machine
end

