-- ==== Sys2Proof/Machine/Flags.lean ====
section
/-! DEFINITION. The block has no status flags and no condition codes (R34). What stands nearest to them is the status view,
a 32-bit word built from the state, which STATUS returns and no register holds (R35). -/

namespace Sys2Proof.Machine

open Sys2Proof

/-- `phase` as its 2-bit code (R66). -/
def phaseCode (q : Phase) : BitVec 2 := BitVec.ofNat 2 q.val

/-- `statusWord(s)` (R35). -/
def statusWord (s : State) : StatusWord :=
  0x00#8 ++ s.right.tickCounter ++ s.left.tickCounter ++ BitVec.ofBool s.right.latch ++ BitVec.ofBool s.left.latch
    ++ s.lights ++ phaseCode s.phase ++ BitVec.ofBool s.right.indPin ++ BitVec.ofBool s.left.indPin
    ++ s.right.level.code ++ s.left.level.code

/-- The bytes of a serialised STATUS word, byte 0 first: little-endian, byte 0 is bits 7..0 (R41, D27). -/
def statusBytes (w : StatusWord) : List (BitVec 8) :=
  [w.extractLsb' 0 8, w.extractLsb' 8 8, w.extractLsb' 16 8, w.extractLsb' 24 8]

end Sys2Proof.Machine
end

