-- ==== Sys2Proof/Machine/Blink.lean ====
section
/-! DEFINITION. The Blink Indicator Engine's event, TICK (42_blink.md). -/

namespace Sys2Proof.Machine

open Sys2Proof

/-- TICK: the same rule for each direction, left first (R101). -/
def execTick (s : State) : Host.Outcome State Fault Refusal :=
  .next (((s.setDir .left (s.left.tick s.params)).setDir .right (s.right.tick s.params)).returns none)

end Sys2Proof.Machine
end

