-- ==== Sys2Proof/Machine/Debounce.lean ====
section
/-! DEFINITION. The Debounce Gate's events, SENSE and SERVICE (40_debounce.md). -/

namespace Sys2Proof.Machine

open Sys2Proof

/-- The edge detector of one sense pin on a sample `v` (R83). -/
def DirState.sample (x : DirState) (v : Bool) : DirState :=
  { x with latch := x.latch || (!x.sensePrev && v), sensePrev := v }

/-- SENSE d, v (R83). -/
def execSense (d : Dir) (v : Bool) (s : State) : Host.Outcome State Fault Refusal :=
  .next ((s.setDir d ((s.dir d).sample v)).returns none)

/-- An accepted edge: `last[d] <- now` and the level advances (R84). -/
def DirState.acceptEdge (x : DirState) (now : Nat) : DirState :=
  { x with last := now }.writeLevel (nextLevel x.level)

/-- SERVICE on one direction's registers, with the value it returns (R84). Without a pending edge nothing changes and the
edge is not accepted (D17). -/
def DirState.service (p : Params) (now : Nat) (x : DirState) : DirState × Bool :=
  if x.latch then
    if accept p now x.last then ({ x.acceptEdge now with latch := false }, true)
    else ({ x with latch := false }, false)
  else (x, false)

/-- SERVICE d, now (R84). -/
def execService (d : Dir) (now : Nat) (s : State) : Host.Outcome State Fault Refusal :=
  .next ((s.setDir d ((s.dir d).service s.params (readNow s.params now)).1).returns
    (some (.accepted ((s.dir d).service s.params (readNow s.params now)).2)))

end Sys2Proof.Machine
end

