-- ==== Sys2Proof/Machine/Intensity.lean ====
section
/-! DEFINITION. The host port's events on the Intensity State, SET, CLEAR, GET and STATUS (41_intensity.md). -/

namespace Sys2Proof.Machine

open Sys2Proof

/-- SET d, lvl (R91). -/
def execSet (d : Dir) (lvl : Level) (s : State) : Host.Outcome State Fault Refusal :=
  .next ((s.writeLevel d lvl).returns none)

/-- CLEAR (R92). -/
def execClear (s : State) : Host.Outcome State Fault Refusal :=
  .next (((s.writeLevel .left .normal).writeLevel .right .normal).returns none)

/-- GET d (R93). -/
def execGet (d : Dir) (s : State) : Host.Outcome State Fault Refusal :=
  .next (s.returns (some (.level (s.dir d).level.code)))

/-- STATUS (R94). -/
def execStatus (s : State) : Host.Outcome State Fault Refusal :=
  .next (s.returns (some (.status (statusWord s))))

end Sys2Proof.Machine
end

