-- ==== Sys2Proof/Machine/Phase.lean ====
section
/-! DEFINITION. The Traffic Phase Controller's event, UNIT (43_phase.md). -/

namespace Sys2Proof.Machine

open Sys2Proof

/-- One strobe of the phase time base (R115): count down, or end the phase. `remaining = 0` is unreachable (log 14). -/
def State.strobe (s : State) : State :=
  if s.remaining > 1 then { s with remaining := s.remaining - 1 } else s.enter (nextPhase s.phase)

/-- UNIT (R115). -/
def execUnit (s : State) : Host.Outcome State Fault Refusal :=
  .next (s.strobe.returns none)

end Sys2Proof.Machine
end

