-- ==== Sys2Proof/Machine/System.lean ====
section
/-! DEFINITION. The system events, NOP and RESET (44_system.md), and power-on (R131 (d), R150). -/

namespace Sys2Proof.Machine

open Sys2Proof

/-- NOP (R120). -/
def execNop (s : State) : Host.Outcome State Fault Refusal :=
  .next (s.returns none)

/-- The assignments RESET makes to one direction's registers (R121). -/
def DirState.clearAll (p : Params) (x : DirState) : DirState :=
  { x with
    level := .normal
    indicatorOn := false
    indPin := false
    tickCounter := 0#4
    last := p.lastAcceptedReset
    latch := false
    sensePrev := false }

/-- RESET (R121): both directions, then `Enter(0)`, which samples the levels just written. -/
def execReset (s : State) : Host.Outcome State Fault Refusal :=
  .next ((((s.setDir .left (s.left.clearAll s.params)).setDir .right (s.right.clearAll s.params)).enter 0).returns none)

/-- Power-on (R150): a run starts in the reset state; parameters that break a constraint are refused (R131 (d)). -/
def powerOn (p : Params) : Host.Outcome State Fault Refusal :=
  if h : p.valid = true then .next (State.afterReset ⟨p, h⟩) else .refused .invalidConfiguration

end Sys2Proof.Machine
end

