-- ==== Sys2Proof/Machine/Dispatch.lean ====
section
/-! DEFINITION. One arm per event of the opcode map (R67). -/

namespace Sys2Proof.Machine

def exec (i : Instr) (s : State) : Host.Outcome State Fault Refusal :=
  match i with
  | .nop => Sys2Proof.Machine.execNop s
  | .sense d v => Sys2Proof.Machine.execSense d v s
  | .service d now => Sys2Proof.Machine.execService d now s
  | .tick => Sys2Proof.Machine.execTick s
  | .unit => Sys2Proof.Machine.execUnit s
  | .set d lvl => Sys2Proof.Machine.execSet d lvl s
  | .clear => Sys2Proof.Machine.execClear s
  | .get d => Sys2Proof.Machine.execGet d s
  | .status => Sys2Proof.Machine.execStatus s
  | .reset => Sys2Proof.Machine.execReset s

end Sys2Proof.Machine
end

