-- ==== Sys2Proof/Machine/Step.lean ====
section
/-! DEFINITION. One step of the machine: `step(s, e)` of R17 for the event that waits first, applied whole (R46, R48). -/

namespace Sys2Proof.Machine

open Sys2Proof

/-- Take the next event, decode it, and run it; an illegal word ends the step as the fault `IllegalEvent` (R68, R130). -/
def step (s : State) : Host.Outcome State Fault Refusal :=
  match decode s.nextEvent with
  | .event i => exec i s.consume
  | .illegal w => .fault (.illegalEvent w)

/-- The state with a word of the opcode table presented as the next event (log 11). -/
def State.withFetchWord (s : State) (nbits w : Nat) : State :=
  s.present [eventOfBits nbits w]

end Sys2Proof.Machine
end

