-- ==== Sys2Proof/Machine/Assembler.lean ====
section
/-! DEFINITION. The text form of event traces (R72), the pseudo-events (R73), and the command interpreter's event mapping at
the block's boundary (R95). What the rules leave open about white space is a DESIGN CHOICE (log 16). -/

namespace Sys2Proof.Machine

open Sys2Proof

/-! Pseudo-events (R73). -/

/-- `PRESS d`: one full pulse on the sense pin. -/
def press (d : Dir) : List Instr := [.sense d true, .sense d false]

/-- `EDGE d, now=n`: one pulse with its interrupt serviced. -/
def edge (d : Dir) (now : Nat) : List Instr := [.sense d true, .service d now, .sense d false]

/-- `TICKS k` -/
def ticks (k : Nat) : List Instr := List.replicate k .tick

/-- `UNITS k` -/
def units (k : Nat) : List Instr := List.replicate k .unit

/-- `SETBOTH lvl`: two events, unlike CLEAR (R92). -/
def setBoth (lvl : Level) : List Instr := [.set .left lvl, .set .right lvl]

/-! Assembler text (R72). -/

/-- What separates the parts of a line. -/
def isSeparator (c : Char) : Bool := c == ' ' || c == ',' || c == '\t'

/-- Cut a line into its parts, up to the comment that `;` starts. `part` is the part being read, last character first. -/
def lineParts (part : List Char) : List Char → List (List Char)
  | [] => if part.isEmpty then [] else [part.reverse]
  | c :: cs =>
    if c == ';' then (if part.isEmpty then [] else [part.reverse])
    else if isSeparator c then (if part.isEmpty then lineParts [] cs else part.reverse :: lineParts [] cs)
    else lineParts (c :: part) cs

/-- The value of a hexadecimal digit; a digit below 10 is a decimal digit too. -/
def digitValue (c : Char) : Option Nat :=
  if '0' ≤ c ∧ c ≤ '9' then some (c.toNat - '0'.toNat)
  else if 'a' ≤ c ∧ c ≤ 'f' then some (c.toNat - 'a'.toNat + 10)
  else if 'A' ≤ c ∧ c ≤ 'F' then some (c.toNat - 'A'.toNat + 10)
  else none

/-- The digits that follow a number read so far, in a base. -/
def readDigits (base acc : Nat) : List Char → Option Nat
  | [] => some acc
  | c :: cs =>
    match digitValue c with
    | some v => if v < base then readDigits base (acc * base + v) cs else none
    | none => none

/-- `<n>`: decimal, or hexadecimal after `0x` (R72). -/
def readNumber : List Char → Option Nat
  | [] => none
  | ['0', 'x'] => none
  | '0' :: 'x' :: cs => readDigits 16 0 cs
  | cs => readDigits 10 0 cs

/-- `now=<n>` -/
def readNowText : List Char → Option Nat
  | 'n' :: 'o' :: 'w' :: '=' :: cs => readNumber cs
  | _ => none

/-- `<dir>` -/
def readDir (part : List Char) : Option Dir :=
  if part = ['L'] then some .left else if part = ['R'] then some .right else none

/-- `<level>`: a name or a code. -/
def readLevel (part : List Char) : Option Level :=
  match String.ofList part with
  | "Normal" => some .normal
  | "Intense" => some .intense
  | "HighIntense" => some .highIntense
  | "0" => some .normal
  | "1" => some .intense
  | "2" => some .highIntense
  | _ => none

/-- A pin level. -/
def readPin (part : List Char) : Option Bool :=
  if part = ['0'] then some false else if part = ['1'] then some true else none

/-- The events of a line's parts: one event, or the expansion of a pseudo-event. R72 gives the form of `<n>` only; that the
`<k>` of TICKS and UNITS takes the same forms, decimal and `0x` hexadecimal, is a DESIGN CHOICE (log 16). -/
def assembleParts : List String → Option (List Instr)
  | [] => some []
  | ["NOP"] => some [.nop]
  | ["TICK"] => some [.tick]
  | ["UNIT"] => some [.unit]
  | ["CLEAR"] => some [.clear]
  | ["STATUS"] => some [.status]
  | ["RESET"] => some [.reset]
  | ["GET", d] => (readDir d.toList).map fun x => [.get x]
  | ["SENSE", d, v] => (readDir d.toList).bind fun x => (readPin v.toList).map fun b => [.sense x b]
  | ["SERVICE", d, n] => (readDir d.toList).bind fun x => (readNowText n.toList).map fun k => [.service x k]
  | ["SET", d, l] => (readDir d.toList).bind fun x => (readLevel l.toList).map fun y => [.set x y]
  | ["PRESS", d] => (readDir d.toList).map press
  | ["EDGE", d, n] => (readDir d.toList).bind fun x => (readNowText n.toList).map (edge x)
  | ["TICKS", k] => (readNumber k.toList).map ticks
  | ["UNITS", k] => (readNumber k.toList).map units
  | ["SETBOTH", l] => (readLevel l.toList).map setBoth
  | _ => none

/-- The events of one line of a trace; no answer for a line that is none (R72, R73). -/
def assembleLine (line : String) : Option (List Instr) :=
  assembleParts ((lineParts [] line.toList).map String.ofList)

/-! The boundary with the command interpreter (R95). -/

/-- The events of an exact, case-sensitive command line. The combined reset command's string is not in the source, so no
string stands for it here; its event is CLEAR. For `status` R95 allows STATUS, or GET L and then GET R; the first is taken
(DESIGN CHOICE, log 16). -/
def commandEvents : String → List Instr
  | "Left Low" => [.set .left .normal]
  | "Left Medium" => [.set .left .intense]
  | "Left High" => [.set .left .highIntense]
  | "Right Low" => [.set .right .normal]
  | "Right Medium" => [.set .right .intense]
  | "Right High" => [.set .right .highIntense]
  | "status" => [.status]
  | "help" => []
  | _ => []

/-- The events of the combined reset command (R95). -/
def combinedResetCommandEvents : List Instr := [.clear]

end Sys2Proof.Machine
end

