-- ==== Sys2Proof/Machine/Cycle.lean ====
section
/-! DEFINITION. Several events in one hardware cycle (R49, D22, D30): they are presented in the fixed order of R49, so that
the steps apply them as if sequentially. Any other list of events is an interleaving that the block also admits. -/

namespace Sys2Proof.Machine

open Sys2Proof

/-- The place of an event in the order of R49. GET and STATUS come first, since they return the state before any of the
cycle's events; NOP changes nothing, and its place beside them is a DESIGN CHOICE (log 13). -/
def cycleRank : Instr → Nat
  | .nop => 0
  | .get _ => 0
  | .status => 0
  | .reset => 1
  | .set _ _ => 2
  | .clear => 2
  | .sense .left _ => 3
  | .sense .right _ => 4
  | .service .left _ => 5
  | .service .right _ => 6
  | .tick => 7
  | .unit => 8

/-- Insert an event before the first one of the same or a later rank. -/
def insertByRank (i : Instr) : List Instr → List Instr
  | [] => [i]
  | j :: js => if cycleRank i ≤ cycleRank j then i :: j :: js else j :: insertByRank i js

/-- The events of one cycle in the order they are applied; events of one rank keep the order they are given in
(DESIGN CHOICE, log 13). -/
def cycleOrder : List Instr → List Instr
  | [] => []
  | i :: is => insertByRank i (cycleOrder is)

/-- Present the events of one cycle. -/
def State.presentCycle (s : State) (is : List Instr) : State :=
  s.present ((cycleOrder is).map encode)

end Sys2Proof.Machine
end

