-- ==== Sys2Proof/Safety.lean ====
section
/-! DEFINITION. What counts as a good state and a safe run, and the relations between two states that the statements use. -/

namespace Sys2Proof.Machine

open Sys2Proof

/-! The invariants of R38. (1) holds by the type `Level`. -/

/-- R38 (2), (3), (4) for one direction, and the width of `last` (R26). -/
structure DirState.Good (p : Params) (x : DirState) : Prop where
  counter_lt : x.tickCounter.toNat < p.tickMod
  pin_eq : x.indPin = x.indicatorOn
  normal_off : x.level = .normal → x.indicatorOn = false
  last_lt : x.last < 2 ^ p.cntW

/-- R38 for the whole state. -/
structure State.Good (s : State) : Prop where
  left : s.left.Good s.params
  right : s.right.Good s.params
  lights_eq : s.lights = pattern s.phase
  remaining_pos : 1 ≤ s.remaining
  remaining_lt : s.remaining < 2 ^ s.params.durW
  remaining_le : s.remaining ≤ dur s.params.durTable s.snapL s.snapR s.phase

/-! Frames. -/

/-- The traffic phase controller's registers are the same (R116). -/
def SameTraffic (s t : State) : Prop :=
  t.phase = s.phase ∧ t.remaining = s.remaining ∧ t.snapL = s.snapL ∧ t.snapR = s.snapR ∧ t.lights = s.lights

/-- The parameters and the waiting events are the same: no event touches them when it is executed (R13). -/
def SameInputs (s t : State) : Prop :=
  t.config = s.config ∧ t.events = s.events

/-- The edge detector's and the gate's registers of one direction are the same. -/
def DirState.SameGate (x y : DirState) : Prop :=
  y.last = x.last ∧ y.latch = x.latch ∧ y.sensePrev = x.sensePrev

/-- The blink engine's registers of one direction are the same. -/
def DirState.SameBlink (x y : DirState) : Prop :=
  y.indicatorOn = x.indicatorOn ∧ y.tickCounter = x.tickCounter ∧ y.indPin = x.indPin

/-- `y` is `x` with level `n`; the indicator is forced off when `n` is Normal, and nothing else is different (R90). -/
def DirState.LevelWritten (n : Level) (x y : DirState) : Prop :=
  y.level = n
    ∧ (n = .normal → y.indicatorOn = false ∧ y.indPin = false)
    ∧ (n ≠ .normal → y.indicatorOn = x.indicatorOn ∧ y.indPin = x.indPin)
    ∧ y.tickCounter = x.tickCounter

/-- A light is on: the bit of `lights` that drives it is 1 (R32). -/
def State.lit (s : State) (l : Light) : Bool := s.lights.getLsbD (lightBit l)

/-! Runs. -/

/-- Execute events one after the other (R48). -/
def execAll : List Instr → State → Host.Outcome State Fault Refusal
  | [], s => .next s
  | i :: is, s =>
    match exec i s with
    | .next t => execAll is t
    | .fault f => .fault f
    | .refused r => .refused r

/-- A number of steps, stopping at the first fault or refusal: `Host.Core.run` of this machine (Laws/Runs.lean). -/
def stepN : Nat → State → Host.Outcome State Fault Refusal
  | 0, s => .next s
  | k + 1, s =>
    match step s with
    | .next t => stepN k t
    | .fault f => .fault f
    | .refused r => .refused r

/-- How many UNIT strobes a list of events holds. -/
def unitCount : List Instr → Nat
  | [] => 0
  | .unit :: is => unitCount is + 1
  | _ :: is => unitCount is

/-- A run with its fault record (R130). The record is empty at the start (R152), a fault is kept for the rest of the run,
and no later event clears it. -/
structure Run where
  state : State
  fault : Option Fault
deriving DecidableEq, Repr

/-- The start of a run (R150, R152). -/
def Run.start (c : Configuration) : Run := { state := State.afterReset c, fault := none }

/-- One event of a run that goes on after a fault: an illegal word leaves the block's state unchanged, is taken from the
input, and is recorded unless a fault is recorded already (log 8). The returned-value port keeps what the event before the
illegal word returned: R17 gives a fault no output and R68 says only that the state is unchanged, so what the port shows
then is a DESIGN CHOICE (log 22). -/
def Run.advance (r : Run) : Run :=
  match step r.state with
  | .next t => { r with state := t }
  | .fault f => { state := r.state.consume, fault := r.fault.or (some f) }
  | .refused _ => r

/-- Several events of a run. -/
def Run.advanceN : Nat → Run → Run
  | 0, r => r
  | k + 1, r => Run.advanceN k r.advance

/-- A run is successful only when no fault is recorded (R130). -/
def Run.successful (r : Run) : Bool := r.fault.isNone

/-! Unbounded runs and fairness (R164). -/

/-- `s` is the unbounded run of the event stream `σ`: each event takes effect on the state the one before it left (R48). The
stream is any interleaving of the agents' streams (R49). -/
def IsRun (σ : Nat → Instr) (s : Nat → State) : Prop :=
  ∀ n, exec (σ n) (s n) = .next (s (n + 1))

/-- The block can take the event in this state: it neither blocks nor refuses it. -/
def Enabled (i : Instr) (s : State) : Prop :=
  ∃ t, exec i s = .next t

/-- Weak fairness of an event along a run: if from some point on the block can always take it, it comes at that point or
later. For UNIT it is the weak fairness of the time-base agent, whose one event UNIT is (R164); for TICK that of the
ticker. -/
def WeaklyFair (i : Instr) (σ : Nat → Instr) (s : Nat → State) : Prop :=
  ∀ n, (∀ m, n ≤ m → Enabled i (s m)) → ∃ m, n ≤ m ∧ σ m = i

/-! Reserved words, from the list of R68 and from R69, not from the decoder. RESET's word 0xFF is listed as legal by R67
although its `z`, `d` and `a` bits are 1, so the must-be-zero rules concern the other operations (log 20). -/

/-- The operations whose word has a direction bit (R60). -/
def opHasDirection (op : BitVec 4) : Bool := op == 1#4 || op == 2#4 || op == 5#4 || op == 7#4

/-- The operations whose word has an argument (R60). -/
def opHasArgument (op : BitVec 4) : Bool := op == 1#4 || op == 5#4

/-- A word that R68 or R69 calls illegal. -/
abbrev ReservedWord (w : EventWord) : Prop :=
  (9 ≤ (opField w).toNat ∧ (opField w).toNat ≤ 14)
    ∨ (opField w = 15#4 ∧ w ≠ 0xFF#8)
    ∨ (opField w ≠ 15#4 ∧ zField w = true)
    ∨ (opField w ≠ 15#4 ∧ opHasDirection (opField w) = false ∧ dField w = true)
    ∨ (opField w ≠ 15#4 ∧ opHasArgument (opField w) = false ∧ lvlField w ≠ 0#2)
    ∨ (opField w = 1#4 ∧ w.getLsbD 1 = true)
    ∨ (opField w = 5#4 ∧ lvlField w = 3#2)

/-! Parameters that no rule reads. -/

/-- Apply a function to the state of a next outcome. -/
def onNext (f : State → State) : Host.Outcome State Fault Refusal → Host.Outcome State Fault Refusal
  | .next t => .next (f t)
  | .fault r => .fault r
  | .refused r => .refused r

/-- The machine with another configuration and the same registers and inputs. -/
def State.withConfig (s : State) (c : Configuration) : State := { s with config := c }

end Sys2Proof.Machine
end

