-- ==== Sys2Proof/Certificates/Slice0/Obligations.lean ====
section
/-! DEFINITION. The statements for the provers. Each docstring names the rule of spec/ that it formalises. Many of the rules
are marked in the spec as its own decisions (D<n>, 92_eei_decisions.md); log 18 lists them. -/

open Sys2Proof Sys2Proof.Machine

/-! ## Decoding and encoding -/

/-- Decoding an encoded event gives it back, with every operand at every value (R60, R61, R67, R71). -/
def Obligations.DecodeOfEncodeGivesTheEventBack : Prop :=
  ∀ i : Instr, decode (encode i) = .event i

/-- A word has one meaning: encoding what the decoder reads gives the word back, and for SERVICE the operand (R71). -/
def Obligations.EncodeOfDecodeGivesTheWordBack : Prop :=
  ∀ (e : Event) (i : Instr), decode e = .event i →
    (encode i).word = e.word ∧ ∀ d now, i = .service d now → now = e.now

/-- R67: the legal words and the event each stands for, whatever is on the operand bus; "Exactly 20 of the 256 words are
legal". -/
def Obligations.LegalWordsAreTheTwentyOfTheOpcodeMap : Prop :=
  ∀ now : Nat,
    (∀ w : EventWord, (∃ i, decode ⟨w, now⟩ = .event i) ↔
      w ∈ [0x00#8, 0x10#8, 0x11#8, 0x14#8, 0x15#8, 0x20#8, 0x24#8, 0x30#8, 0x40#8, 0x50#8, 0x51#8, 0x52#8, 0x54#8,
        0x55#8, 0x56#8, 0x60#8, 0x70#8, 0x74#8, 0x80#8, 0xFF#8])
    ∧ decode ⟨0x00#8, now⟩ = .event .nop
    ∧ decode ⟨0x10#8, now⟩ = .event (.sense .left false) ∧ decode ⟨0x11#8, now⟩ = .event (.sense .left true)
    ∧ decode ⟨0x14#8, now⟩ = .event (.sense .right false) ∧ decode ⟨0x15#8, now⟩ = .event (.sense .right true)
    ∧ decode ⟨0x20#8, now⟩ = .event (.service .left now) ∧ decode ⟨0x24#8, now⟩ = .event (.service .right now)
    ∧ decode ⟨0x30#8, now⟩ = .event .tick ∧ decode ⟨0x40#8, now⟩ = .event .unit
    ∧ decode ⟨0x50#8, now⟩ = .event (.set .left .normal) ∧ decode ⟨0x51#8, now⟩ = .event (.set .left .intense)
    ∧ decode ⟨0x52#8, now⟩ = .event (.set .left .highIntense) ∧ decode ⟨0x54#8, now⟩ = .event (.set .right .normal)
    ∧ decode ⟨0x55#8, now⟩ = .event (.set .right .intense) ∧ decode ⟨0x56#8, now⟩ = .event (.set .right .highIntense)
    ∧ decode ⟨0x60#8, now⟩ = .event .clear
    ∧ decode ⟨0x70#8, now⟩ = .event (.get .left) ∧ decode ⟨0x74#8, now⟩ = .event (.get .right)
    ∧ decode ⟨0x80#8, now⟩ = .event .status ∧ decode ⟨0xFF#8, now⟩ = .event .reset

/-- R71 (an inference of the spec): the decoder answers an event exactly when a row's mask and match fit, and for SET the
code is not 3; otherwise it answers `Illegal(w)`; no two rows match the same word. -/
def Obligations.DecoderFollowsMaskAndMatch : Prop :=
  (∀ e : Event,
    ((∃ i, decode e = .event i) ↔
      ∃ r ∈ opcodeMap, e.word &&& r.mask = r.pattern ∧ (r.opcode = .set → lvlField e.word ≠ 3#2))
    ∧ ((∀ i, decode e ≠ .event i) → decode e = .illegal e.word))
  ∧ ∀ (w : EventWord), ∀ r₁ ∈ opcodeMap, ∀ r₂ ∈ opcodeMap,
      w &&& r₁.mask = r₁.pattern → w &&& r₂.mask = r₂.pattern → r₁ = r₂

/-- R68 and R69: exactly the reserved words are illegal, and taking one ends the step as the fault `IllegalEvent(w)`. That
the must-be-zero rules leave out RESET's word 0xFF is the model's reading (log 20). The clauses about a run that goes on are
the model's choice (log 8): the illegal word is taken from the input, the registers are unchanged, and a second illegal word
leaves the first one's record; that the record is never cleared is R68's. The returned-value port is unchanged by the model's
choice too (log 22). -/
def Obligations.ReservedWordsRaiseIllegalEvent : Prop :=
  (∀ e : Event, ReservedWord e.word ↔ decode e = .illegal e.word)
  ∧ ∀ (s : State) (e : Event) (es : List Event), s.events = e :: es → ReservedWord e.word →
      step s = .fault (.illegalEvent e.word)
      ∧ ∀ f, Run.advance { state := s, fault := f }
          = { state := { s with events := es }, fault := some (f.getD (.illegalEvent e.word)) }
        ∧ ∀ k, (Run.advanceN (k + 1) { state := s, fault := f }).fault = some (f.getD (.illegalEvent e.word))

/-- A few words written out from R67 (95_test_vectors.md, 2.1). -/
def Obligations.SampleWordsDecodeAsTheSpecSays : Prop :=
  decode ⟨0x00#8, 0⟩ = .event .nop
    ∧ decode ⟨0x15#8, 0⟩ = .event (.sense .right true)
    ∧ decode ⟨0x24#8, 7⟩ = .event (.service .right 7)
    ∧ decode ⟨0x30#8, 0⟩ = .event .tick
    ∧ decode ⟨0x40#8, 0⟩ = .event .unit
    ∧ decode ⟨0x52#8, 0⟩ = .event (.set .left .highIntense)
    ∧ decode ⟨0x57#8, 0⟩ = .illegal 0x57#8
    ∧ decode ⟨0x60#8, 0⟩ = .event .clear
    ∧ decode ⟨0x74#8, 0⟩ = .event (.get .right)
    ∧ decode ⟨0x80#8, 0⟩ = .event .status
    ∧ decode ⟨0xFE#8, 0⟩ = .illegal 0xFE#8
    ∧ decode ⟨0xFF#8, 0⟩ = .event .reset

/-! ## Steps and runs -/

/-- A step takes the event that waits first and, when its word decodes to `i`, is `exec i` (R17, R46). -/
def Obligations.StepRunsTheDecodedEvent : Prop :=
  ∀ (s : State) (e : Event) (es : List Event) (i : Instr), s.events = e :: es → decode e = .event i →
    step s = exec i { s with events := es }

/-- With nothing at the input a step is an idle event and changes no register. The reading of R120 as the empty input's
event is the model's choice (log 6). -/
def Obligations.StepWithoutAnEventIsIdle : Prop :=
  ∀ s : State, s.events = [] → step s = .next { s with out := none }

/-- R130: every legal event completes on every state and every operand value; the only fault of a step is `IllegalEvent`,
code 1, with the word that was decoded; a recorded fault is kept for the rest of the run, and the run is not successful.
That one record is kept across further illegal words, and the last clause, in which the run goes on after a fault with the
illegal word taken from the input, are the model's choice (log 8). -/
def Obligations.LegalEventsCompleteAndFaultsAreKept : Prop :=
  (∀ (i : Instr) (s : State), ∃ t, exec i s = .next t)
  ∧ (∀ (s : State) (f : Fault), step s = .fault f →
      ∃ e es, s.events = e :: es ∧ decode e = .illegal e.word ∧ f = .illegalEvent e.word ∧ f.code = 1)
  ∧ (∀ (s : State) (r : Refusal), step s ≠ .refused r)
  ∧ (∀ (k : Nat) (r : Run) (f : Fault), r.fault = some f →
      (r.advanceN k).fault = some f ∧ (r.advanceN k).successful = false)
  ∧ ∀ (s : State) (f : Fault) (o : Option Fault), step s = .fault f →
      (Run.advance { state := s, fault := o }).state = s.consume

/-- Events take effect one at a time in the order of the input, each on the state the one before it left (R46, R48): a run
of steps over presented events is their execution in order. -/
def Obligations.RunOverPresentedEventsIsExecutionInOrder : Prop :=
  ∀ (is : List Instr) (s : State),
    stepN is.length (s.present (is.map encode)) = execAll is s

/-- R13: no event changes the parameters; a step takes one event from the input and puts none there. -/
def Obligations.StepKeepsTheParameters : Prop :=
  ∀ (s t : State), step s = .next t → t.config = s.config ∧ t.events = s.events.tail

/-! ## Reset -/

/-- R121: RESET gives every register its reset value and performs the entry into phase 0. In a run with a fault recorded
it does so too, and the fault stays recorded. -/
def Obligations.ResetWritesEveryRegister : Prop :=
  ∀ s : State, ∃ t, exec .reset s = .next t
    ∧ (∀ f, Run.advance { state := s.present [encode .reset], fault := some f } = { state := t, fault := some f })
    ∧ (∀ d, (t.dir d).level = .normal ∧ (t.dir d).indicatorOn = false ∧ (t.dir d).indPin = false
        ∧ (t.dir d).tickCounter = 0#4 ∧ (t.dir d).last = s.params.lastAcceptedReset ∧ (t.dir d).latch = false
        ∧ (t.dir d).sensePrev = false)
    ∧ t.phase = 0 ∧ t.snapL = .normal ∧ t.snapR = .normal ∧ t.lights = 0x21#6
    ∧ t.remaining = s.params.durTable.normal.normal.phase0
    ∧ SameInputs s t ∧ t.out = none

/-- R150: power-on has the same effect as RESET, and a run starts in the state that RESET produces. -/
def Obligations.PowerOnEqualsReset : Prop :=
  ∀ s : State, ∃ t, powerOn s.params = .next t ∧ exec .reset s = .next { t with events := s.events }
    ∧ Run.start s.config = { state := t, fault := none }

/-- R131 (d): a configuration that breaks a parameter constraint of R5-R8 is refused, and one that breaks none is not. That
`LAST_ACCEPTED_RESET < 2^CNT_W`, the width R11 gives, counts as a constraint is the model's choice (log 15). -/
def Obligations.PowerOnRefusesExactlyBadParameters : Prop :=
  ∀ p : Params, powerOn p = .refused .invalidConfiguration ↔
    ¬ (1 ≤ p.cntW ∧ p.threshold < 2 ^ p.cntW ∧ p.lastAcceptedReset < 2 ^ p.cntW
      ∧ 1 ≤ p.modFast ∧ 1 ≤ p.modMedium ∧ 1 ≤ p.modSlow ∧ 1 ≤ p.tickMod ∧ p.tickMod ≤ 16
      ∧ ∀ a b q, 1 ≤ dur p.durTable a b q ∧ dur p.durTable a b q ≤ 2 ^ p.durW - 1)

/-- R152 (an inference of the spec): the complete reset state with the default parameters, for every value of the two OPEN
ones, and the STATUS word there. -/
def Obligations.ResetStateWithDefaultParameters : Prop :=
  ∀ (threshold scale : Nat) (h : threshold < 2 ^ 32),
    (∀ d, (State.afterReset (defaultConfiguration threshold scale h)).dir d
      = { level := .normal, indicatorOn := false, tickCounter := 0#4, indPin := false, last := 0, latch := false,
          sensePrev := false })
    ∧ (State.afterReset (defaultConfiguration threshold scale h)).phase = 0
    ∧ (State.afterReset (defaultConfiguration threshold scale h)).remaining = 15
    ∧ (State.afterReset (defaultConfiguration threshold scale h)).snapL = .normal
    ∧ (State.afterReset (defaultConfiguration threshold scale h)).snapR = .normal
    ∧ (State.afterReset (defaultConfiguration threshold scale h)).lights = 0x21#6
    ∧ statusWord (State.afterReset (defaultConfiguration threshold scale h)) = 0x00002100#32

/-! ## The debounce gate -/

/-- R83: SENSE sets the latch on a low-to-high change, stores the sample, and changes nothing else. -/
def Obligations.SenseLatchesARisingEdge : Prop :=
  ∀ (s : State) (d : Dir) (v : Bool), ∃ t, exec (.sense d v) s = .next t
    ∧ (t.dir d).sensePrev = v
    ∧ ((s.dir d).sensePrev = false ∧ v = true → (t.dir d).latch = true)
    ∧ (¬((s.dir d).sensePrev = false ∧ v = true) → (t.dir d).latch = (s.dir d).latch)
    ∧ (t.dir d).level = (s.dir d).level ∧ (t.dir d).last = (s.dir d).last ∧ (s.dir d).SameBlink (t.dir d)
    ∧ t.dir d.other = s.dir d.other ∧ SameTraffic s t ∧ SameInputs s t ∧ t.out = none

/-- R84: SERVICE runs the gate on a pending edge at counter value `now`, advances the level and moves `last` on
acceptance, clears the latch in either case, returns `accepted`, and changes nothing else; without a pending edge it
changes nothing and returns 0. The gate is written out from R15, R80 and R81. -/
def Obligations.ServiceRunsTheGateAndAcknowledges : Prop :=
  ∀ (s : State) (d : Dir) (now : Nat), ∃ t, exec (.service d now) s = .next t
    ∧ ((s.dir d).latch = false → t.dir d = s.dir d ∧ t.out = some (.accepted false))
    ∧ ((s.dir d).latch = true →
        ((now : Int) - (s.dir d).last) % 2 ^ s.params.cntW ≤ s.params.threshold →
          t.dir d = { s.dir d with latch := false } ∧ t.out = some (.accepted false))
    ∧ ((s.dir d).latch = true →
        ((now : Int) - (s.dir d).last) % 2 ^ s.params.cntW > s.params.threshold →
          (t.dir d).latch = false ∧ (t.dir d).last = now % 2 ^ s.params.cntW
          ∧ (s.dir d).LevelWritten (nextLevel (s.dir d).level) (t.dir d)
          ∧ (t.dir d).sensePrev = (s.dir d).sensePrev ∧ t.out = some (.accepted true))
    ∧ t.dir d.other = s.dir d.other ∧ SameTraffic s t ∧ SameInputs s t

/-- R80: `elapsed` is the difference modulo `2^CNT_W`. So for a counter that has run on by `E` units since it stood at
`t0`, both seen modulo `2^CNT_W`, it is `E` itself when `E` is below `2^CNT_W`, wrap or not, and `E mod 2^CNT_W` otherwise. -/
def Obligations.ElapsedIsTheTrueTimeModuloTheWidth : Prop :=
  (∀ w now last : Nat, (elapsed w now last : Int) = ((now : Int) - last) % 2 ^ w ∧ elapsed w now last < 2 ^ w)
  ∧ ∀ w t0 E : Nat,
      elapsed w ((t0 + E) % 2 ^ w) (t0 % 2 ^ w) = E % 2 ^ w
      ∧ (E < 2 ^ w → elapsed w ((t0 + E) % 2 ^ w) (t0 % 2 ^ w) = E)

/-- R81: the comparison with the threshold is strict. An edge serviced `k` units after the last acceptance, `k` below
`2^CNT_W`, is accepted exactly when `k` exceeds the threshold; exactly `T` units after it is rejected. -/
def Obligations.EdgeIsAcceptedExactlyBeyondTheThreshold : Prop :=
  ∀ (s : State) (d : Dir) (k : Nat), (s.dir d).latch = true → k < 2 ^ s.params.cntW →
    ∃ t, exec (.service d ((s.dir d).last + k)) s = .next t
      ∧ t.out = some (.accepted (decide (s.params.threshold < k)))

/-- R156 (an inference of the spec): wrap aliasing, and the window after reset in which a first edge is rejected. -/
def Obligations.GateAliasesLongTimesAndHasAPostResetWindow : Prop :=
  (∀ (s : State) (d : Dir) (E : Nat), (s.dir d).latch = true →
    ∃ t, exec (.service d ((s.dir d).last + E)) s = .next t
      ∧ t.out = some (.accepted (decide (s.params.threshold < E % 2 ^ s.params.cntW))))
  ∧ ∀ (c : Configuration) (d : Dir) (k : Nat), k < 2 ^ c.params.cntW →
    ∃ t, execAll [.sense d true, .service d (c.params.lastAcceptedReset + k)] (State.afterReset c) = .next t
      ∧ t.out = some (.accepted (decide (c.params.threshold < k)))

/-- With the largest threshold no edge is ever accepted (R84, corner case `T = 2^CNT_W - 1`). -/
def Obligations.LargestThresholdAcceptsNoEdge : Prop :=
  ∀ (s : State) (d : Dir) (now : Nat), s.params.threshold = 2 ^ s.params.cntW - 1 →
    ∃ t, exec (.service d now) s = .next t ∧ t.out = some (.accepted false)
      ∧ (t.dir d).level = (s.dir d).level ∧ (t.dir d).last = (s.dir d).last ∧ (t.dir d).latch = false

/-- R85 (an inference of the spec): any number of samples after a pending edge leaves it pending, and the next SERVICE
decides on all of them at once, with at most one level advance. -/
def Obligations.EdgesMergeWhileOneIsPending : Prop :=
  ∀ (s : State) (d : Dir) (vs : List Bool) (now : Nat), (s.dir d).latch = true →
    ∃ t u, execAll (vs.map (Instr.sense d)) s = .next t ∧ (t.dir d).latch = true ∧ (t.dir d).level = (s.dir d).level
      ∧ exec (.service d now) t = .next u ∧ (u.dir d).latch = false
      ∧ ((u.dir d).level = (s.dir d).level ∨ (u.dir d).level = nextLevel (s.dir d).level)

/-- R86 (an inference of the spec): the window is measured from the last accepted edge. After a rejected edge, the next
edge is accepted exactly when it is serviced more than `T` units after the last acceptance. -/
def Obligations.RejectedEdgeDoesNotMoveTheWindow : Prop :=
  ∀ (s t : State) (d : Dir) (n k : Nat), (s.dir d).latch = true → k < 2 ^ s.params.cntW →
    exec (.service d n) s = .next t → t.out = some (.accepted false) →
      ∃ u, execAll [.sense d false, .sense d true, .service d ((s.dir d).last + k)] t = .next u
        ∧ u.out = some (.accepted (decide (s.params.threshold < k)))

/-- R82: the advance is `(l + 1) mod 3` on the codes. -/
def Obligations.LevelAdvanceIsCyclicOnTheCodes : Prop :=
  (∀ l : Level, (nextLevel l).code.toNat = (l.code.toNat + 1) % 3)
    ∧ nextLevel .normal = .intense ∧ nextLevel .intense = .highIntense ∧ nextLevel .highIntense = .normal

/-- The writers of `level[d]` (R21), and its step by an edge (R88, an inference of the spec): an event that changes it is
SET d, CLEAR or RESET, or an accepted SERVICE d, which advances it by one step. -/
def Obligations.LevelHasNoOtherWriters : Prop :=
  ∀ (i : Instr) (s t : State) (d : Dir), exec i s = .next t → (t.dir d).level ≠ (s.dir d).level →
    (∃ l, i = .set d l ∧ (t.dir d).level = l) ∨ i = .clear ∨ i = .reset
      ∨ (∃ now, i = .service d now) ∧ t.out = some (.accepted true) ∧ (t.dir d).level = nextLevel (s.dir d).level

/-- R87: each sense source drives only its own direction, and leaves the phase controller alone. -/
def Obligations.SenseSourceDrivesOnlyItsDirection : Prop :=
  ∀ (i : Instr) (s t : State) (d : Dir), i.agent = .edge d → exec i s = .next t →
    t.dir d.other = s.dir d.other ∧ SameTraffic s t

/-! ## The intensity state and the host port -/

/-- R90: a level that becomes Normal has its indicator off in the same event, whichever event wrote it. -/
def Obligations.IndicatorIsOffAtTheTransitionToNormal : Prop :=
  ∀ (i : Instr) (s t : State) (d : Dir), exec i s = .next t → (s.dir d).level ≠ .normal → (t.dir d).level = .normal →
    (t.dir d).indicatorOn = false ∧ (t.dir d).indPin = false

/-- R91, with `WriteLevel` of R90: SET writes the level, forces the indicator off with Normal, and changes nothing else. -/
def Obligations.SetWritesTheLevel : Prop :=
  ∀ (s : State) (d : Dir) (l : Level), ∃ t, exec (.set d l) s = .next t
    ∧ (s.dir d).LevelWritten l (t.dir d) ∧ (s.dir d).SameGate (t.dir d)
    ∧ t.dir d.other = s.dir d.other ∧ SameTraffic s t ∧ SameInputs s t ∧ t.out = none

/-- R92: CLEAR writes Normal to both directions in one event, and changes nothing else. -/
def Obligations.ClearWritesNormalToBoth : Prop :=
  ∀ s : State, ∃ t, exec .clear s = .next t
    ∧ (∀ d, (s.dir d).LevelWritten .normal (t.dir d) ∧ (s.dir d).SameGate (t.dir d))
    ∧ SameTraffic s t ∧ SameInputs s t ∧ t.out = none

/-- R93: GET returns the code of the direction's level and writes no register. -/
def Obligations.GetReturnsTheLevelCode : Prop :=
  ∀ (s : State) (d : Dir), ∃ c, exec (.get d) s = .next { s with out := some (.level c) } ∧ c.toNat ≤ 2
    ∧ (c = 0#2 ↔ (s.dir d).level = .normal) ∧ (c = 1#2 ↔ (s.dir d).level = .intense)
    ∧ (c = 2#2 ↔ (s.dir d).level = .highIntense)

/-- R94 with R35: STATUS returns the status view, field by field, and writes no register. -/
def Obligations.StatusReturnsTheStatusView : Prop :=
  ∀ s : State, ∃ w, exec .status s = .next { s with out := some (.status w) }
    ∧ w.extractLsb' 0 2 = s.left.level.code ∧ w.extractLsb' 2 2 = s.right.level.code
    ∧ w.getLsbD 4 = s.left.indPin ∧ w.getLsbD 5 = s.right.indPin
    ∧ (w.extractLsb' 6 2).toNat = s.phase.val ∧ w.extractLsb' 8 6 = s.lights
    ∧ w.getLsbD 14 = s.left.latch ∧ w.getLsbD 15 = s.right.latch
    ∧ w.extractLsb' 16 4 = s.left.tickCounter ∧ w.extractLsb' 20 4 = s.right.tickCounter
    ∧ w.extractLsb' 24 8 = 0#8

/-- R47 (an inference of the spec): GET and STATUS change no register, SERVICE leaves the latch clear whether or not it
accepts, and every event but SENSE, SERVICE, TICK and UNIT is idempotent. -/
def Obligations.ReadsHaveNoEffectAndHostEventsAreIdempotent : Prop :=
  (∀ (s : State) (d : Dir), ∃ o, exec (.get d) s = .next (s.returns o))
  ∧ (∀ s : State, ∃ o, exec .status s = .next (s.returns o))
  ∧ (∀ (s : State) (d : Dir) (now : Nat), ∃ t, exec (.service d now) s = .next t ∧ (t.dir d).latch = false)
  ∧ ∀ (i : Instr) (s t : State), (∀ d v, i ≠ .sense d v) → (∀ d now, i ≠ .service d now) → i ≠ .tick → i ≠ .unit →
      exec i s = .next t → exec i t = .next t

/-- The returned value is no state of the block (R34): no event reads the port that holds it. -/
def Obligations.ReturnedValueIsNeverRead : Prop :=
  ∀ (i : Instr) (s : State) (o : Option Output), exec i (s.returns o) = exec i s

/-! ## The blink engine -/

/-- R101 with R22 and R100: TICK for each direction, by its level. Normal is Off; Intense is Medium; HighIntense is Fast.
The toggle test reads the counter before its increment. Nothing else changes. -/
def Obligations.TickBlinksEachDirection : Prop :=
  ∀ s : State, ∃ t, exec .tick s = .next t
    ∧ (∀ d, (t.dir d).level = (s.dir d).level ∧ (s.dir d).SameGate (t.dir d)
        ∧ ((s.dir d).level = .normal →
            (t.dir d).indicatorOn = false ∧ (t.dir d).indPin = false
            ∧ (s.params.offAdvance = true →
                (t.dir d).tickCounter.toNat = ((s.dir d).tickCounter.toNat + 1) % s.params.tickMod)
            ∧ (s.params.offAdvance = false → (t.dir d).tickCounter = (s.dir d).tickCounter))
        ∧ (∀ m, (s.dir d).level = .intense ∧ m = s.params.modMedium
              ∨ (s.dir d).level = .highIntense ∧ m = s.params.modFast →
            ((s.dir d).tickCounter.toNat % m = 0 →
              (t.dir d).indicatorOn = !(s.dir d).indicatorOn ∧ (t.dir d).indPin = !(s.dir d).indicatorOn)
            ∧ ((s.dir d).tickCounter.toNat % m ≠ 0 →
              (t.dir d).indicatorOn = (s.dir d).indicatorOn ∧ (t.dir d).indPin = (s.dir d).indPin)
            ∧ (t.dir d).tickCounter.toNat = ((s.dir d).tickCounter.toNat + 1) % s.params.tickMod))
    ∧ SameTraffic s t ∧ SameInputs s t ∧ t.out = none

/-- R105 (an inference of the spec): with the default moduli a tick toggles Fast at the counters 0, 3, 6, 9 and Medium at
0 and 8, and never toggles Off. -/
def Obligations.DefaultModuliToggleAtTheListedCounters : Prop :=
  ∀ (s t : State) (d : Dir), s.params.modFast = 3 → s.params.modMedium = 8 → s.params.tickMod = 12 →
    (s.dir d).Good s.params → exec .tick s = .next t →
      ((t.dir d).indicatorOn ≠ (s.dir d).indicatorOn ↔
        (s.dir d).level = .highIntense ∧ (s.dir d).tickCounter ∈ [0#4, 3#4, 6#4, 9#4]
        ∨ (s.dir d).level = .intense ∧ (s.dir d).tickCounter ∈ [0#4, 8#4])

/-- The writers of `tickCounter[d]` (R24) and the only event that turns an indicator on (R102). -/
def Obligations.OnlyTickCountsTicksAndLightsAnIndicator : Prop :=
  ∀ (i : Instr) (s t : State) (d : Dir), exec i s = .next t →
    ((t.dir d).tickCounter ≠ (s.dir d).tickCounter → i = .tick ∨ i = .reset)
    ∧ ((s.dir d).indicatorOn = false → (t.dir d).indicatorOn = true → i = .tick)

/-! ## The traffic phase controller -/

/-- R115, with `Enter` of R113, the sampling of R114 and the sequence of R110: UNIT counts down, or ends the phase and
enters the next; nothing else changes. -/
def Obligations.UnitCountsDownOrEntersTheNextPhase : Prop :=
  ∀ s : State, ∃ t, exec .unit s = .next t
    ∧ (1 < s.remaining → t.remaining = s.remaining - 1 ∧ t.phase = s.phase ∧ t.snapL = s.snapL ∧ t.snapR = s.snapR
        ∧ t.lights = s.lights)
    ∧ (s.remaining ≤ 1 → t.phase.val = (s.phase.val + 1) % 4 ∧ t.lights = pattern t.phase
        ∧ (t.phase = 0 ∨ t.phase = 2 → t.snapL = s.left.level ∧ t.snapR = s.right.level)
        ∧ (t.phase = 1 ∨ t.phase = 3 → t.snapL = s.snapL ∧ t.snapR = s.snapR)
        ∧ t.remaining = dur s.params.durTable t.snapL t.snapR t.phase)
    ∧ t.left = s.left ∧ t.right = s.right ∧ SameInputs s t ∧ t.out = none

/-- R116 (an inference of the spec): only UNIT and RESET write the controller's registers. -/
def Obligations.OnlyUnitAndResetMoveTheTraffic : Prop :=
  ∀ (i : Instr) (s t : State), exec i s = .next t → i ≠ .unit → i ≠ .reset → SameTraffic s t

/-- R115, "A phase entered with `remaining = D` ends on exactly the `D`-th UNIT after its entry": whatever other events but
RESET fall between the strobes, before that strobe the phase, its snapshot and its lights stand, and `remaining` has gone
down by the strobes so far. -/
def Obligations.PhaseEndsOnExactlyItsLastUnit : Prop :=
  ∀ (es : List Instr) (s : State), (∀ i ∈ es, i ≠ .reset) → unitCount es < s.remaining →
    ∃ t, execAll es s = .next t
      ∧ t.phase = s.phase ∧ t.snapL = s.snapL ∧ t.snapR = s.snapR ∧ t.lights = s.lights
      ∧ t.remaining = s.remaining - unitCount es
      ∧ (unitCount es + 1 = s.remaining →
          ∃ u, execAll (es ++ [.unit]) s = .next u ∧ u.phase.val = (s.phase.val + 1) % 4)

/-- R117 and R114 (inferences of the spec): from the entry into phase 0 or 2, the half lasts the two durations of its
snapshot, whatever other events but RESET fall in it, and the next half starts with a new snapshot of the levels. -/
def Obligations.HalfCycleLastsItsTwoDurations : Prop :=
  ∀ (es : List Instr) (s : State), (∀ i ∈ es, i ≠ .reset) → s.phase = 0 ∨ s.phase = 2 →
    s.remaining = dur s.params.durTable s.snapL s.snapR s.phase →
    unitCount es + 1
      = dur s.params.durTable s.snapL s.snapR s.phase + dur s.params.durTable s.snapL s.snapR (nextPhase s.phase) →
    ∃ t, execAll (es ++ [.unit]) s = .next t
      ∧ t.phase.val = (s.phase.val + 2) % 4 ∧ t.snapL = t.left.level ∧ t.snapR = t.right.level
      ∧ t.lights = pattern t.phase ∧ t.remaining = dur s.params.durTable t.left.level t.right.level t.phase

/-- R66: the pattern of each phase; in each phase exactly the two named lights are on. -/
def Obligations.EachPhaseLightsExactlyItsTwoLights : Prop :=
  (pattern 0 = 0x21#6 ∧ pattern 1 = 0x11#6 ∧ pattern 2 = 0x0C#6 ∧ pattern 3 = 0x0A#6)
  ∧ ∀ l : Light,
    ((pattern 0).getLsbD (lightBit l) = true ↔ l = .redLeft ∨ l = .greenRight)
    ∧ ((pattern 1).getLsbD (lightBit l) = true ↔ l = .redLeft ∨ l = .yellowRight)
    ∧ ((pattern 2).getLsbD (lightBit l) = true ↔ l = .greenLeft ∨ l = .redRight)
    ∧ ((pattern 3).getLsbD (lightBit l) = true ↔ l = .yellowLeft ∨ l = .redRight)

/-- R112: the default duration table as its formula in `k = b - a`; the cells (Intense, HighIntense) and (HighIntense,
Intense) are the spec's decision D19. -/
def Obligations.DefaultTableFollowsTheLevelDifference : Prop :=
  ∀ (a b : Level) (q : Phase),
    dur defaultDurTable a b q
      = phaseDuration
          (match (b.code.toNat : Int) - a.code.toNat with
            | 0 => ⟨15, 5, 15, 5⟩
            | 1 => ⟨30, 5, 10, 5⟩
            | 2 => ⟨50, 5, 10, 5⟩
            | -1 => ⟨10, 5, 30, 5⟩
            | _ => ⟨10, 5, 50, 5⟩) q

/-! ## System events -/

/-- R120: NOP changes no register and returns nothing, and NOPs may stand anywhere in a run without changing it: what
the events after them do is the same. -/
def Obligations.NopChangesNothing : Prop :=
  (∀ s : State, exec .nop s = .next { s with out := none })
  ∧ ∀ (before after : List Instr) (i : Instr) (k : Nat) (s : State),
      execAll (before ++ List.replicate k .nop ++ i :: after) s = execAll (before ++ i :: after) s

/-! ## Whole-machine rules -/

/-- The invariant of R38 holds after reset, for every configuration, and so at `State.reset`. -/
def Obligations.ResetStateIsGood : Prop :=
  (∀ c : Configuration, (State.afterReset c).Good) ∧ State.reset.Good

/-- R38 (an inference of the spec), with R26's and R30's widths: every step keeps the invariant. -/
def Obligations.StepKeepsTheInvariant : Prop :=
  ∀ (s t : State), s.Good → step s = .next t → t.Good

/-- After any events from reset, each side shows exactly one light, and exactly one side shows red (R66, R38 (5)). -/
def Obligations.ExactlyOneSideIsRed : Prop :=
  ∀ (c : Configuration) (es : List Instr) (t : State), execAll es (State.afterReset c) = .next t →
    t.lit .redLeft = !t.lit .redRight
    ∧ (t.lit .redLeft = true → t.lit .yellowLeft = false ∧ t.lit .greenLeft = false)
    ∧ (t.lit .redLeft = false → t.lit .yellowLeft = !t.lit .greenLeft)
    ∧ (t.lit .redRight = true → t.lit .yellowRight = false ∧ t.lit .greenRight = false)
    ∧ (t.lit .redRight = false → t.lit .yellowRight = !t.lit .greenRight)

/-- R39 (an inference of the spec): the two copies are independent. What an event leaves in one direction's registers
depends only on the parameters and on that direction's registers before it. -/
def Obligations.DirectionsAreIndependent : Prop :=
  (∀ (i : Instr) (d : Dir) (s₁ s₂ t₁ t₂ : State), s₁.params = s₂.params → s₁.dir d = s₂.dir d →
      exec i s₁ = .next t₁ → exec i s₂ = .next t₂ → t₁.dir d = t₂.dir d)
  ∧ ∀ (s : State) (d : Dir) (v : Bool) (now : Nat) (l : Level), ∀ i ∈ [Instr.sense d v, .service d now, .set d l, .get d],
      ∃ t, exec i s = .next t ∧ t.dir d.other = s.dir d.other

/-- R9, R12 and R104: SCALE, TICK_RATE and MOD_SLOW have no effect on any step. -/
def Obligations.ScaleTickRateAndSlowModulusHaveNoEffect : Prop :=
  ∀ (s : State) (c : Configuration) (scale tickRate modSlow : Nat),
    c.params = { s.params with scale := scale, tickRate := tickRate, modSlow := modSlow } →
      step (s.withConfig c) = onNext (fun t => t.withConfig c) (step s)

/-! ## Hardware cycles and pseudo-events -/

/-- R49: the events of one hardware cycle are applied in the fixed order, each once, and whatever is applied before a GET
or a STATUS of the cycle leaves every register as it is. The places of NOP and of events of one rank are the model's choice
(log 13). -/
def Obligations.CycleIsAppliedInTheFixedOrder : Prop :=
  (∀ is : List Instr, (cycleOrder is).Perm is ∧ (cycleOrder is).Pairwise (fun i j => cycleRank i ≤ cycleRank j))
  ∧ ∀ (is a b : List Instr) (i : Instr) (s : State), cycleOrder is = a ++ i :: b → (i = .status ∨ ∃ d, i = .get d) →
      ∃ o, execAll a s = .next (s.returns o)

/-- R73 and R92: PRESS leaves the latch set exactly when it was set or the pulse was a rising edge; SETBOTH Normal with
nothing in between is CLEAR. -/
def Obligations.PseudoEventsExpandToRealEvents : Prop :=
  (∀ (s : State) (d : Dir), ∃ t, execAll (press d) s = .next t ∧ (t.dir d).sensePrev = false
      ∧ (t.dir d).latch = ((s.dir d).latch || !(s.dir d).sensePrev) ∧ (t.dir d).level = (s.dir d).level)
  ∧ ∀ s : State, execAll (setBoth .normal) s = exec .clear s

/-! ## Progress -/

/-- R164 (an inference of the spec): the block never blocks or refuses a legal event, so no event of one agent prevents
another's, and every event stream has a run from every state. -/
def Obligations.BlockNeverBlocksALegalEvent : Prop :=
  (∀ (i : Instr) (s : State), Enabled i s)
  ∧ ∀ (σ : Nat → Instr) (s₀ : State), ∃ s : Nat → State, s 0 = s₀ ∧ IsRun σ s

/-- R164 (an inference of the spec): under weak fairness of the time-base agent, and with no RESET from some point on, the
phase ends and the next is entered, every phase comes again, and the lights eventually change. -/
def Obligations.FairTimeBaseEventuallyChangesTheLights : Prop :=
  ∀ (σ : Nat → Instr) (s : Nat → State) (n : Nat), IsRun σ s → WeaklyFair .unit σ s →
    (∀ m, n ≤ m → σ m ≠ .reset) →
      (∃ m, n ≤ m ∧ (s m).phase.val = ((s n).phase.val + 1) % 4 ∧ (s m).lights = pattern (s m).phase)
      ∧ (∀ q : Phase, ∃ m, n ≤ m ∧ (s m).phase = q)
      ∧ ((s n).lights = pattern (s n).phase → ∃ m, n ≤ m ∧ (s m).lights ≠ (s n).lights)

/-- R164 (an inference of the spec), for the blink: under weak fairness of the ticker, an indicator whose level stays above
Normal from some point on eventually toggles. -/
def Obligations.FairTickerEventuallyTogglesTheIndicator : Prop :=
  ∀ (σ : Nat → Instr) (s : Nat → State) (n : Nat) (d : Dir), IsRun σ s → WeaklyFair .tick σ s →
    (∀ m, n ≤ m → ((s m).dir d).level ≠ .normal) →
      ∃ m, n ≤ m ∧ ((s m).dir d).indicatorOn ≠ ((s n).dir d).indicatorOn
end

