-- ==== Sys2Proof/Laws/Decode.lean ====
section
/-! SUPPORT. Spec lemmas of the decoder's parts. -/

namespace Sys2Proof

@[simp] theorem dirOfBit_bit (d : Dir) : dirOfBit d.bit = d := by cases d <;> rfl

@[simp] theorem levelOfCode_code (l : Level) : levelOfCode l.code = some l := by cases l <;> rfl

/-- No level has the reserved code 3 (R64). -/
theorem level_code_ne_three (l : Level) : l.code ≠ 3#2 := by cases l <;> decide

/-- Put another value on the operand bus of a decoded event: only SERVICE has one (R60). -/
def Decoded.withNow (now : Nat) : Decoded → Decoded
  | .event (.service d _) => .event (.service d now)
  | r => r

/-- The operand bus matters to SERVICE only, so what a word decodes to can be read off with 0 on the bus. -/
theorem decode_withNow (w : EventWord) (now : Nat) : decode ⟨w, now⟩ = (decode ⟨w, 0⟩).withNow now := by
  unfold decode
  cases opcodeOf w with
  | none => rfl
  | some o =>
    cases o with
    | set => dsimp only; cases levelOfCode (lvlField w) <;> rfl
    | nop => rfl
    | sense => rfl
    | service => rfl
    | tick => rfl
    | unit => rfl
    | clear => rfl
    | get => rfl
    | status => rfl
    | reset => rfl

/-- The row an encoded event is of (R67). -/
def Instr.opcode : Instr → Opcode
  | .nop => .nop
  | .sense _ _ => .sense
  | .service _ _ => .service
  | .tick => .tick
  | .unit => .unit
  | .set _ _ => .set
  | .clear => .clear
  | .get _ => .get
  | .status => .status
  | .reset => .reset

/-- An encoded event's word matches its own row first (R71). -/
theorem opcodeOf_encode (i : Instr) : opcodeOf (encode i).word = some i.opcode := by
  cases i with
  | nop => rfl
  | sense d v => cases d <;> cases v <;> rfl
  | service d now =>
    change opcodeOf (encode (.service d 0)).word = some .service
    cases d <;> decide
  | tick => rfl
  | unit => rfl
  | set d l => cases d <;> cases l <;> rfl
  | clear => rfl
  | get d => cases d <;> rfl
  | status => rfl
  | reset => rfl

end Sys2Proof
end

