-- ==== Sys2Proof/Laws/State.lean ====
section
/-! SUPPORT. One lemma per field for each update of the state, so that no proof unfolds a record update. -/

namespace Sys2Proof.Machine

open Sys2Proof

/-! `State.returns` -/

@[simp] theorem State.returns_config (s : State) (o : Option Output) : (s.returns o).config = s.config := rfl
@[simp] theorem State.returns_params (s : State) (o : Option Output) : (s.returns o).params = s.params := rfl
@[simp] theorem State.returns_left (s : State) (o : Option Output) : (s.returns o).left = s.left := rfl
@[simp] theorem State.returns_right (s : State) (o : Option Output) : (s.returns o).right = s.right := rfl
@[simp] theorem State.returns_phase (s : State) (o : Option Output) : (s.returns o).phase = s.phase := rfl
@[simp] theorem State.returns_remaining (s : State) (o : Option Output) : (s.returns o).remaining = s.remaining := rfl
@[simp] theorem State.returns_snapL (s : State) (o : Option Output) : (s.returns o).snapL = s.snapL := rfl
@[simp] theorem State.returns_snapR (s : State) (o : Option Output) : (s.returns o).snapR = s.snapR := rfl
@[simp] theorem State.returns_lights (s : State) (o : Option Output) : (s.returns o).lights = s.lights := rfl
@[simp] theorem State.returns_events (s : State) (o : Option Output) : (s.returns o).events = s.events := rfl
@[simp] theorem State.returns_out (s : State) (o : Option Output) : (s.returns o).out = o := rfl

@[simp] theorem State.returns_dir (s : State) (o : Option Output) (d : Dir) : (s.returns o).dir d = s.dir d := by
  cases d <;> rfl

/-! `State.dir` -/

@[simp] theorem State.dir_left (s : State) : s.dir .left = s.left := rfl
@[simp] theorem State.dir_right (s : State) : s.dir .right = s.right := rfl

/-! `Dir.other` -/

@[simp] theorem Dir.other_left : Dir.other .left = .right := rfl
@[simp] theorem Dir.other_right : Dir.other .right = .left := rfl

@[simp] theorem Dir.other_other (d : Dir) : d.other.other = d := by cases d <;> rfl
@[simp] theorem Dir.other_ne (d : Dir) : d.other ≠ d := by cases d <;> decide

/-! `State.setDir` -/

@[simp] theorem State.setDir_left_left (s : State) (x : DirState) : (s.setDir .left x).left = x := rfl
@[simp] theorem State.setDir_left_right (s : State) (x : DirState) : (s.setDir .left x).right = s.right := rfl
@[simp] theorem State.setDir_right_left (s : State) (x : DirState) : (s.setDir .right x).left = s.left := rfl
@[simp] theorem State.setDir_right_right (s : State) (x : DirState) : (s.setDir .right x).right = x := rfl

@[simp] theorem State.setDir_dir (s : State) (d : Dir) (x : DirState) : (s.setDir d x).dir d = x := by
  cases d <;> rfl

@[simp] theorem State.setDir_dir_other (s : State) (d : Dir) (x : DirState) :
    (s.setDir d x).dir d.other = s.dir d.other := by
  cases d <;> rfl

@[simp] theorem State.setDir_config (s : State) (d : Dir) (x : DirState) : (s.setDir d x).config = s.config := by
  cases d <;> rfl
@[simp] theorem State.setDir_params (s : State) (d : Dir) (x : DirState) : (s.setDir d x).params = s.params := by
  cases d <;> rfl
@[simp] theorem State.setDir_phase (s : State) (d : Dir) (x : DirState) : (s.setDir d x).phase = s.phase := by
  cases d <;> rfl
@[simp] theorem State.setDir_remaining (s : State) (d : Dir) (x : DirState) :
    (s.setDir d x).remaining = s.remaining := by
  cases d <;> rfl
@[simp] theorem State.setDir_snapL (s : State) (d : Dir) (x : DirState) : (s.setDir d x).snapL = s.snapL := by
  cases d <;> rfl
@[simp] theorem State.setDir_snapR (s : State) (d : Dir) (x : DirState) : (s.setDir d x).snapR = s.snapR := by
  cases d <;> rfl
@[simp] theorem State.setDir_lights (s : State) (d : Dir) (x : DirState) : (s.setDir d x).lights = s.lights := by
  cases d <;> rfl
@[simp] theorem State.setDir_events (s : State) (d : Dir) (x : DirState) : (s.setDir d x).events = s.events := by
  cases d <;> rfl
@[simp] theorem State.setDir_out (s : State) (d : Dir) (x : DirState) : (s.setDir d x).out = s.out := by
  cases d <;> rfl

/-! `State.consume` and `State.present` -/

@[simp] theorem State.consume_config (s : State) : s.consume.config = s.config := rfl
@[simp] theorem State.consume_params (s : State) : s.consume.params = s.params := rfl
@[simp] theorem State.consume_left (s : State) : s.consume.left = s.left := rfl
@[simp] theorem State.consume_right (s : State) : s.consume.right = s.right := rfl
@[simp] theorem State.consume_phase (s : State) : s.consume.phase = s.phase := rfl
@[simp] theorem State.consume_remaining (s : State) : s.consume.remaining = s.remaining := rfl
@[simp] theorem State.consume_snapL (s : State) : s.consume.snapL = s.snapL := rfl
@[simp] theorem State.consume_snapR (s : State) : s.consume.snapR = s.snapR := rfl
@[simp] theorem State.consume_lights (s : State) : s.consume.lights = s.lights := rfl
@[simp] theorem State.consume_events (s : State) : s.consume.events = s.events.tail := rfl
@[simp] theorem State.consume_out (s : State) : s.consume.out = s.out := rfl

@[simp] theorem State.present_config (s : State) (es : List Event) : (s.present es).config = s.config := rfl
@[simp] theorem State.present_params (s : State) (es : List Event) : (s.present es).params = s.params := rfl
@[simp] theorem State.present_left (s : State) (es : List Event) : (s.present es).left = s.left := rfl
@[simp] theorem State.present_right (s : State) (es : List Event) : (s.present es).right = s.right := rfl
@[simp] theorem State.present_phase (s : State) (es : List Event) : (s.present es).phase = s.phase := rfl
@[simp] theorem State.present_remaining (s : State) (es : List Event) : (s.present es).remaining = s.remaining := rfl
@[simp] theorem State.present_snapL (s : State) (es : List Event) : (s.present es).snapL = s.snapL := rfl
@[simp] theorem State.present_snapR (s : State) (es : List Event) : (s.present es).snapR = s.snapR := rfl
@[simp] theorem State.present_lights (s : State) (es : List Event) : (s.present es).lights = s.lights := rfl
@[simp] theorem State.present_events (s : State) (es : List Event) : (s.present es).events = es ++ s.events := rfl
@[simp] theorem State.present_out (s : State) (es : List Event) : (s.present es).out = s.out := rfl

@[simp] theorem State.present_nil (s : State) : s.present [] = s := rfl

/-- The event put first is the one the next step takes. -/
@[simp] theorem State.present_nextEvent (s : State) (e : Event) (es : List Event) :
    (s.present (e :: es)).nextEvent = e := rfl

@[simp] theorem State.present_consume (s : State) (e : Event) (es : List Event) :
    (s.present (e :: es)).consume = s.present es := rfl

/-! `State.enter` -/

@[simp] theorem State.enter_config (s : State) (q : Phase) : (s.enter q).config = s.config := by
  unfold State.enter; split <;> rfl
@[simp] theorem State.enter_params (s : State) (q : Phase) : (s.enter q).params = s.params := by
  unfold State.enter; split <;> rfl
@[simp] theorem State.enter_left (s : State) (q : Phase) : (s.enter q).left = s.left := by
  unfold State.enter; split <;> rfl
@[simp] theorem State.enter_right (s : State) (q : Phase) : (s.enter q).right = s.right := by
  unfold State.enter; split <;> rfl
@[simp] theorem State.enter_events (s : State) (q : Phase) : (s.enter q).events = s.events := by
  unfold State.enter; split <;> rfl
@[simp] theorem State.enter_out (s : State) (q : Phase) : (s.enter q).out = s.out := by
  unfold State.enter; split <;> rfl
@[simp] theorem State.enter_phase (s : State) (q : Phase) : (s.enter q).phase = q := by
  unfold State.enter; split <;> rfl
@[simp] theorem State.enter_lights (s : State) (q : Phase) : (s.enter q).lights = pattern q := by
  unfold State.enter; split <;> rfl

/-- The snapshot is taken anew at the start of a half and kept otherwise (R114). -/
@[simp] theorem State.enter_snapL (s : State) (q : Phase) :
    (s.enter q).snapL = if startsHalf q then s.left.level else s.snapL := by
  unfold State.enter; split <;> rfl
@[simp] theorem State.enter_snapR (s : State) (q : Phase) :
    (s.enter q).snapR = if startsHalf q then s.right.level else s.snapR := by
  unfold State.enter; split <;> rfl

/-- The duration is looked up with the snapshot just written (R113). -/
@[simp] theorem State.enter_remaining (s : State) (q : Phase) :
    (s.enter q).remaining = dur s.params.durTable (s.enter q).snapL (s.enter q).snapR q := by
  unfold State.enter; split <;> rfl

end Sys2Proof.Machine
end

