-- ==== Sys2Proof/Laws/Ops.lean ====
section
/-! SUPPORT. Spec lemmas of the operations of Machine/Ops.lean and of the parts the events are made of: each says once what
its operation does, so that later proofs cite it. -/

namespace Sys2Proof.Machine

open Sys2Proof

/-! The debounce gate. -/

/-- `elapsed` is the difference modulo `2^CNT_W` (R15, R80). -/
theorem elapsed_eq_emod (w now last : Nat) : (elapsed w now last : Int) = ((now : Int) - last) % 2 ^ w := by
  have hpos : (0 : Nat) < 2 ^ w := Nat.two_pow_pos w
  have hlt : last % 2 ^ w < 2 ^ w := Nat.mod_lt _ hpos
  have hsum : elapsed w now last = (2 ^ w - last % 2 ^ w + now % 2 ^ w) % 2 ^ w := by simp [elapsed, BitVec.toNat_sub]
  rw [hsum]
  push_cast [Nat.cast_sub hlt.le]
  rw [show (2 ^ w - (last : Int) % 2 ^ w + (now : Int) % 2 ^ w) = (now % 2 ^ w - last % 2 ^ w) + 2 ^ w by ring,
    Int.add_emod_right, ← Int.sub_emod]

theorem elapsed_lt (w now last : Nat) : elapsed w now last < 2 ^ w := by
  simpa [elapsed] using (BitVec.ofNat w now - BitVec.ofNat w last).isLt

/-- Only the low `CNT_W` bits of either argument matter. -/
theorem elapsed_mod_now (w now last : Nat) : elapsed w (now % 2 ^ w) last = elapsed w now last := by
  have h : BitVec.ofNat w (now % 2 ^ w) = BitVec.ofNat w now := by apply BitVec.eq_of_toNat_eq; simp
  simp only [elapsed, h]

theorem readNow_lt (p : Params) (now : Nat) : readNow p now < 2 ^ p.cntW :=
  Nat.mod_lt _ (Nat.two_pow_pos _)

/-- A well-formed operand is read as it is. -/
theorem readNow_of_fits {p : Params} {now : Nat} (h : p.nowFits now = true) : readNow p now = now :=
  Nat.mod_eq_of_lt (by simpa [Params.nowFits] using h)

theorem accept_iff (p : Params) (now last : Nat) : accept p now last = true ↔ p.threshold < elapsed p.cntW now last := by
  simp [accept]

/-! One direction's registers. -/

@[simp] theorem DirState.writeLevel_level (x : DirState) (n : Level) : (x.writeLevel n).level = n := by cases n <;> rfl
@[simp] theorem DirState.writeLevel_tickCounter (x : DirState) (n : Level) :
    (x.writeLevel n).tickCounter = x.tickCounter := by cases n <;> rfl
@[simp] theorem DirState.writeLevel_last (x : DirState) (n : Level) : (x.writeLevel n).last = x.last := by cases n <;> rfl
@[simp] theorem DirState.writeLevel_latch (x : DirState) (n : Level) : (x.writeLevel n).latch = x.latch := by cases n <;> rfl
@[simp] theorem DirState.writeLevel_sensePrev (x : DirState) (n : Level) :
    (x.writeLevel n).sensePrev = x.sensePrev := by cases n <;> rfl

/-- The indicator goes off with Normal and is kept otherwise (R90). -/
@[simp] theorem DirState.writeLevel_indicatorOn (x : DirState) (n : Level) :
    (x.writeLevel n).indicatorOn = if n = .normal then false else x.indicatorOn := by cases n <;> rfl
@[simp] theorem DirState.writeLevel_indPin (x : DirState) (n : Level) :
    (x.writeLevel n).indPin = if n = .normal then false else x.indPin := by cases n <;> rfl

/-- What SERVICE can do to one direction: nothing, a rejection, or an acceptance (R84). -/
theorem DirState.service_cases (p : Params) (now : Nat) (x : DirState) :
    (x.latch = false ∧ x.service p now = (x, false)) ∨
    (x.latch = true ∧ accept p now x.last = false ∧ x.service p now = ({ x with latch := false }, false)) ∨
    (x.latch = true ∧ accept p now x.last = true ∧
      x.service p now = ({ x.acceptEdge now with latch := false }, true)) := by
  unfold DirState.service
  cases hl : x.latch <;> cases ha : accept p now x.last <;> simp

/-- The rate Slow is never asked for (R104), so TICK sees one of three cases: Off, or one of the two moduli (R101). -/
theorem DirState.tick_cases (p : Params) (x : DirState) :
    (x.level = .normal ∧
      x.tick p = { x with
        indicatorOn := false
        indPin := false
        tickCounter := if p.offAdvance then nextTick p x.tickCounter else x.tickCounter }) ∨
    (x.level = .intense ∧
      x.tick p = { (if x.tickCounter.toNat % p.modMedium = 0 then x.toggle else x) with
        tickCounter := nextTick p x.tickCounter }) ∨
    (x.level = .highIntense ∧
      x.tick p = { (if x.tickCounter.toNat % p.modFast = 0 then x.toggle else x) with
        tickCounter := nextTick p x.tickCounter }) := by
  unfold DirState.tick
  cases hl : x.level <;> simp [rateOf, modulus]

@[simp] theorem DirState.tick_level (p : Params) (x : DirState) : (x.tick p).level = x.level := by
  rcases x.tick_cases p with ⟨-, h⟩ | ⟨-, h⟩ | ⟨-, h⟩ <;> rw [h] <;> dsimp only <;> split <;> rfl
@[simp] theorem DirState.tick_last (p : Params) (x : DirState) : (x.tick p).last = x.last := by
  rcases x.tick_cases p with ⟨-, h⟩ | ⟨-, h⟩ | ⟨-, h⟩ <;> rw [h] <;> dsimp only <;> split <;> rfl
@[simp] theorem DirState.tick_latch (p : Params) (x : DirState) : (x.tick p).latch = x.latch := by
  rcases x.tick_cases p with ⟨-, h⟩ | ⟨-, h⟩ | ⟨-, h⟩ <;> rw [h] <;> dsimp only <;> split <;> rfl
@[simp] theorem DirState.tick_sensePrev (p : Params) (x : DirState) : (x.tick p).sensePrev = x.sensePrev := by
  rcases x.tick_cases p with ⟨-, h⟩ | ⟨-, h⟩ | ⟨-, h⟩ <;> rw [h] <;> dsimp only <;> split <;> rfl

/-! The parameters' bounds. -/

theorem config_tickMod_pos (c : Configuration) : 1 ≤ c.params.tickMod := ((valid_iff _).1 c.valid).2.2.2.2.2.2.1

theorem config_tickMod_le (c : Configuration) : c.params.tickMod ≤ 16 := ((valid_iff _).1 c.valid).2.2.2.2.2.2.2.1

theorem config_lastAcceptedReset_lt (c : Configuration) : c.params.lastAcceptedReset < 2 ^ c.params.cntW :=
  ((valid_iff _).1 c.valid).2.2.1

/-- Every looked-up duration is an entry of the table (R111). -/
theorem dur_mem_entries (t : DurTable) (a b : Level) (q : Phase) : dur t a b q ∈ t.entries := by
  fin_cases q <;> cases a <;> cases b <;>
    simp [dur, phaseDuration, durVector, durRow, DurTable.entries, DurRow.entries, PhaseDurations.entries]

/-- Every duration fits the register `remaining` and is not 0 (R8). -/
theorem config_dur_bounds (c : Configuration) (a b : Level) (q : Phase) :
    1 ≤ dur c.params.durTable a b q ∧ dur c.params.durTable a b q < 2 ^ c.params.durW :=
  ((valid_iff _).1 c.valid).2.2.2.2.2.2.2.2 _ (dur_mem_entries _ a b q)

/-- The counter's increment does not lose a bit of its 4-bit register, since `TICK_MOD <= 16` (R7). -/
theorem config_nextTick_toNat (c : Configuration) (k : TickCounter) :
    (nextTick c.params k).toNat = (k.toNat + 1) % c.params.tickMod := by
  have hlt : (k.toNat + 1) % c.params.tickMod < c.params.tickMod := Nat.mod_lt _ (config_tickMod_pos c)
  have hle := config_tickMod_le c
  simp only [nextTick, BitVec.toNat_ofNat]
  exact Nat.mod_eq_of_lt (by omega)

/-! The traffic phase controller. -/

/-- What a strobe can do: count down, or enter the next phase (R115). -/
theorem State.strobe_cases (s : State) :
    (1 < s.remaining ∧ s.strobe = { s with remaining := s.remaining - 1 }) ∨
    (s.remaining ≤ 1 ∧ s.strobe = s.enter (nextPhase s.phase)) := by
  unfold State.strobe
  split
  · exact .inl ⟨‹_›, rfl⟩
  · exact .inr ⟨by omega, rfl⟩

end Sys2Proof.Machine
end

