-- ==== Sys2Proof/Laws/PerInstr.lean ====
section
/-! SUPPORT. A statement made per instruction, one lemma per constructor of `Instr`. -/

namespace Sys2Proof.Laws.EncodesItsRow

open Sys2Proof

/-- The encoded word satisfies the match and mask of the row of the event's own opcode (R67, R71). -/
def Statement (i : Instr) : Prop :=
  ∃ r ∈ opcodeMap, r.opcode = i.opcode ∧ (encode i).word &&& r.mask = r.pattern

theorem nop : Statement .nop :=
  ⟨⟨.nop, 0x00#8, 0xFF#8⟩, by decide, rfl, by decide⟩

theorem sense (d : Dir) (v : Bool) : Statement (.sense d v) :=
  ⟨⟨.sense, 0x10#8, 0xFA#8⟩, by decide, rfl, by cases d <;> cases v <;> decide⟩

theorem service (d : Dir) (now : Nat) : Statement (.service d now) :=
  ⟨⟨.service, 0x20#8, 0xFB#8⟩, by decide, rfl, by
    change (encode (.service d 0)).word &&& 0xFB#8 = 0x20#8
    cases d <;> decide⟩

theorem tick : Statement .tick :=
  ⟨⟨.tick, 0x30#8, 0xFF#8⟩, by decide, rfl, by decide⟩

theorem unit : Statement .unit :=
  ⟨⟨.unit, 0x40#8, 0xFF#8⟩, by decide, rfl, by decide⟩

theorem set (d : Dir) (lvl : Level) : Statement (.set d lvl) :=
  ⟨⟨.set, 0x50#8, 0xF8#8⟩, by decide, rfl, by cases d <;> cases lvl <;> decide⟩

theorem clear : Statement .clear :=
  ⟨⟨.clear, 0x60#8, 0xFF#8⟩, by decide, rfl, by decide⟩

theorem get (d : Dir) : Statement (.get d) :=
  ⟨⟨.get, 0x70#8, 0xFB#8⟩, by decide, rfl, by cases d <;> decide⟩

theorem status : Statement .status :=
  ⟨⟨.status, 0x80#8, 0xFF#8⟩, by decide, rfl, by decide⟩

theorem reset : Statement .reset :=
  ⟨⟨.reset, 0xFF#8, 0xFF#8⟩, by decide, rfl, by decide⟩

end Sys2Proof.Laws.EncodesItsRow
end

