-- ==== Sys2Proof/Laws/Runs.lean ====
section
/-! SUPPORT. What an event's execution and a run of events can do, said once. -/

namespace Sys2Proof.Machine

open Sys2Proof

/-- One step of the host's run, for any machine. -/
theorem host_run_succ (M : Host.Core) (k : Nat) (x : M.State) :
    Host.Core.run M (k + 1) x
      = (match M.step x with
          | .next t => Host.Core.run M k t
          | .fault f => .fault f
          | .refused r => .refused r) := rfl

/-- `stepN` is the host's run of the core. -/
theorem core_run_eq_stepN (k : Nat) (s : State) : Host.Core.run Sys2Proof.core k s = stepN k s := by
  induction k generalizing s with
  | zero => rfl
  | succ k ih =>
    refine (host_run_succ Sys2Proof.core k s).trans ?_
    rw [stepN, show Sys2Proof.core.step s = step s from rfl]
    cases step s with
    | next t => exact ih t
    | fault f => rfl
    | refused r => rfl

/-- The execution of an event that gives a next state reads no more than the parameters, the registers and the operands:
it commutes with putting events at the input. -/
theorem exec_present (i : Instr) (s : State) (es : List Event) :
    exec i (s.present es) = onNext (fun t => t.present es) (exec i s) := by
  cases i with
  | nop => rfl
  | sense d v => cases d <;> rfl
  | service d now => cases d <;> rfl
  | tick => rfl
  | unit =>
    simp only [exec, execUnit, onNext]
    congr 1
    rcases s.strobe_cases with ⟨h₁, h⟩ | ⟨h₁, h⟩ <;>
      rcases (s.present es).strobe_cases with ⟨h₂, h'⟩ | ⟨h₂, h'⟩ <;>
      simp only [State.present_remaining] at h₂ <;>
      first
      | omega
      | (rw [h, h']; ext <;> simp)
  | set d l => cases d <;> cases l <;> rfl
  | clear => rfl
  | get d => cases d <;> rfl
  | status => rfl
  | reset => rfl

/-- What an event leaves in the registers of direction `d`, as a function of the parameters and those registers. -/
def dirAfter (p : Params) (d : Dir) (i : Instr) (x : DirState) : DirState :=
  match i with
  | .sense e v => if e = d then x.sample v else x
  | .service e now => if e = d then (x.service p (readNow p now)).1 else x
  | .tick => x.tick p
  | .set e l => if e = d then x.writeLevel l else x
  | .clear => x.writeLevel .normal
  | .reset => x.clearAll p
  | .nop => x
  | .unit => x
  | .get _ => x
  | .status => x

/-- What an event can do to one direction's registers. -/
theorem exec_dir {i : Instr} {s t : State} (h : exec i s = .next t) (d : Dir) :
    t.dir d = dirAfter s.params d i (s.dir d) := by
  cases i with
  | nop => cases h; cases d <;> rfl
  | sense e v => cases h; cases e <;> cases d <;> rfl
  | service e now => cases h; cases e <;> cases d <;> rfl
  | tick => cases h; cases d <;> rfl
  | unit =>
    cases h
    rcases s.strobe_cases with ⟨-, h⟩ | ⟨-, h⟩ <;> rw [h] <;> cases d <;> simp [dirAfter]
  | set e l => cases h; cases e <;> cases d <;> rfl
  | clear => cases h; cases d <;> rfl
  | get e => cases h; cases d <;> rfl
  | status => cases h; cases d <;> rfl
  | reset => cases h; cases d <;> simp [dirAfter]

/-- One event of an unbounded run, on one direction's registers. -/
theorem IsRun.dir_succ {σ : Nat → Instr} {s : Nat → State} (h : IsRun σ s) (n : Nat) (d : Dir) :
    (s (n + 1)).dir d = dirAfter (s n).params d (σ n) ((s n).dir d) :=
  exec_dir (h n) d

/-- A finite stretch of an unbounded run is the execution of its events in order. -/
theorem IsRun.execAll_stretch {σ : Nat → Instr} {s : Nat → State} (h : IsRun σ s) (n k : Nat) :
    execAll ((List.range' n k).map σ) (s n) = .next (s (n + k)) := by
  induction k generalizing n with
  | zero => rfl
  | succ k ih =>
    rw [List.range'_succ, List.map_cons]
    simp only [execAll, h n]
    rw [ih (n + 1), Nat.add_right_comm]
    rfl

@[simp] theorem execAll_nil (s : State) : execAll [] s = .next s := rfl

/-- The first of several events, when it completes. -/
theorem execAll_cons_of_next {i : Instr} {is : List Instr} {s t : State} (h : exec i s = .next t) :
    execAll (i :: is) s = execAll is t := by
  simp only [execAll, h]

/-- The first part of a list of events, when it completes. -/
theorem execAll_append_of_next {is js : List Instr} {s t : State} (h : execAll is s = .next t) :
    execAll (is ++ js) s = execAll js t := by
  induction is generalizing s with
  | nil => cases h; rfl
  | cons i is ih =>
    simp only [execAll, List.cons_append] at h ⊢
    cases hi : exec i s with
    | next u => rw [hi] at h; exact ih h
    | fault f => rw [hi] at h; cases h
    | refused r => rw [hi] at h; cases h

/-- A single event. -/
theorem execAll_singleton (i : Instr) (s : State) : execAll [i] s = exec i s := by
  simp only [execAll]
  cases exec i s <;> rfl

end Sys2Proof.Machine
end

