-- ==== Sys2Proof/Tests/Slice0.lean ====
section
/-! SUPPORT. Tests: expected values are those of 95_test_vectors.md, or written out by hand from the rule named. The last part
shows, for each statement with hypotheses, a state and operands that meet them. -/

namespace Sys2Proof.Tests

open Sys2Proof Sys2Proof.Machine

/-! ## States to test on -/

/-- The default parameters with `T = 50`, the example value of 95_test_vectors.md. -/
def config50 : Configuration := defaultConfiguration 50 1 (by decide)

/-- The state after reset with `T = 50`. -/
def st : State := State.afterReset config50

/-- The same with other registers for the left direction. -/
def withLeft (x : DirState) : State := st.setDir .left x

/-- One direction's registers with a level, an indicator that is on or off, and a counter. -/
def blinking (l : Level) (on : Bool) (k : TickCounter) : DirState :=
  { DirState.afterReset config50.params with level := l, indicatorOn := on, indPin := on, tickCounter := k }

/-- One direction's registers with a level, a pending edge and a time of the last acceptance. -/
def pending (l : Level) (last : Nat) : DirState :=
  { DirState.afterReset config50.params with level := l, latch := true, last := last }

/-- The state an event leaves. -/
def after (i : Instr) (s : State) : State :=
  match exec i s with
  | .next t => t
  | .fault _ => s
  | .refused _ => s

/-- Whether a step completed. -/
def completed : Host.Outcome State Fault Refusal → Bool
  | .next _ => true
  | .fault _ => false
  | .refused _ => false

/-! ## WellFormed: the one check, on a 32-bit operand bus -/

theorem test_wellFormed_refuses_wide_now : (Instr.service .left (2 ^ 32)).wellFormed config50.params = false := by decide

theorem test_wellFormed_takes_widest_now : (Instr.service .left (2 ^ 32 - 1)).wellFormed config50.params = true := by decide

theorem test_event_wellFormed_refuses_wide_now : (Event.wellFormed config50.params ⟨0x20#8, 2 ^ 32⟩) = false := by decide

/-- Boundaries of the parameter constraints (R5-R8, R11). -/
theorem test_invalid_parameters :
    ({ config50.params with cntW := 0, threshold := 0 }).valid = false
      ∧ ({ config50.params with threshold := 2 ^ 32 }).valid = false
      ∧ ({ config50.params with lastAcceptedReset := 2 ^ 32 }).valid = false
      ∧ ({ config50.params with modFast := 0 }).valid = false
      ∧ ({ config50.params with modMedium := 0 }).valid = false
      ∧ ({ config50.params with modSlow := 0 }).valid = false
      ∧ ({ config50.params with tickMod := 0 }).valid = false
      ∧ ({ config50.params with tickMod := 17 }).valid = false
      ∧ ({ config50.params with durW := 5 }).valid = false := by decide

/-! ## Decoding: words written out bit by bit from R67 -/

theorem test_decode_nop : decode ⟨0b00000000#8, 0⟩ = .event .nop := by decide
theorem test_decode_sense_left_0 : decode ⟨0b00010000#8, 0⟩ = .event (.sense .left false) := by decide
theorem test_decode_sense_left_1 : decode ⟨0b00010001#8, 0⟩ = .event (.sense .left true) := by decide
theorem test_decode_sense_right_0 : decode ⟨0b00010100#8, 0⟩ = .event (.sense .right false) := by decide
theorem test_decode_sense_right_1 : decode ⟨0b00010101#8, 0⟩ = .event (.sense .right true) := by decide
theorem test_decode_service_left : decode ⟨0b00100000#8, 100⟩ = .event (.service .left 100) := by decide
theorem test_decode_service_right : decode ⟨0b00100100#8, 120⟩ = .event (.service .right 120) := by decide
theorem test_decode_tick : decode ⟨0b00110000#8, 0⟩ = .event .tick := by decide
theorem test_decode_unit : decode ⟨0b01000000#8, 0⟩ = .event .unit := by decide
theorem test_decode_set_left_normal : decode ⟨0b01010000#8, 0⟩ = .event (.set .left .normal) := by decide
theorem test_decode_set_left_intense : decode ⟨0b01010001#8, 0⟩ = .event (.set .left .intense) := by decide
theorem test_decode_set_right_highIntense : decode ⟨0b01010110#8, 0⟩ = .event (.set .right .highIntense) := by decide
theorem test_decode_clear : decode ⟨0b01100000#8, 0⟩ = .event .clear := by decide
theorem test_decode_get_left : decode ⟨0b01110000#8, 0⟩ = .event (.get .left) := by decide
theorem test_decode_get_right : decode ⟨0b01110100#8, 0⟩ = .event (.get .right) := by decide
theorem test_decode_status : decode ⟨0b10000000#8, 0⟩ = .event .status := by decide
theorem test_decode_reset : decode ⟨0b11111111#8, 0⟩ = .event .reset := by decide

/-- The illegal words of 95_test_vectors.md, 2.1. -/
theorem test_decode_illegal_words :
    ∀ w ∈ [0x12#8, 0x18#8, 0x21#8, 0x28#8, 0x31#8, 0x34#8, 0x53#8, 0x57#8, 0x5C#8, 0x72#8, 0x90#8, 0xE0#8, 0xFE#8],
      decode ⟨w, 0⟩ = .illegal w := by decide

/-- The operand bus is above the word when a table word has more than 8 bits (log 11). -/
theorem test_decodeTableWord_service : decodeTableWord 8 0x24 = some (.service .right 0)
    ∧ decodeTableWord 40 0x6424 = some (.service .right 0x64) ∧ decodeTableWord 8 0x53 = none := by decide

/-! ## One step per event (95_test_vectors.md, 2.2 to 2.7) -/

/-- S1 and S6: a rising edge sets the left latch; the right direction is untouched. -/
theorem test_sense_rising_edge :
    (after (.sense .left true) st).left.latch = true ∧ (after (.sense .left true) st).left.sensePrev = true
      ∧ (after (.sense .left true) st).right = st.right := by decide

/-- S3: a falling edge keeps the latch. -/
theorem test_sense_falling_edge :
    (after (.sense .left false) (withLeft { pending .normal 0 with sensePrev := true })).left
      = { pending .normal 0 with sensePrev := false } := by decide

/-- D3 and D4: elapsed 50 is rejected, elapsed 51 is accepted, with `T = 50`. -/
theorem test_service_threshold_is_strict :
    (after (.service .left 150) (withLeft (pending .intense 100))).left = { pending .intense 100 with latch := false }
      ∧ (after (.service .left 150) (withLeft (pending .intense 100))).out = some (.accepted false)
      ∧ (after (.service .left 151) (withLeft (pending .intense 100))).left.level = .highIntense
      ∧ (after (.service .left 151) (withLeft (pending .intense 100))).left.last = 151 := by decide

/-- D5: the counter wraps, elapsed 64, and the advance from HighIntense forces the indicator off and keeps the counter. -/
theorem test_service_wrap_forces_off :
    (after (.service .left 0x30)
        (withLeft { pending .highIntense 0xFFFFFFF0 with indicatorOn := true, indPin := true, tickCounter := 7#4 })).left
      = { DirState.afterReset config50.params with last := 0x30, tickCounter := 7#4 } := by decide

/-- B7: Fast at counter 0 toggles; Off does not; both counters advance. -/
theorem test_tick_fast_and_off :
    (after .tick (withLeft (blinking .highIntense false 0#4))).left = blinking .highIntense true 1#4
      ∧ (after .tick (withLeft (blinking .highIntense false 0#4))).right.tickCounter = 1#4 := by decide

/-- B4 and B5: at counter 11 neither Fast nor Medium toggles, and the counter wraps. -/
theorem test_tick_wraps :
    (after .tick (withLeft (blinking .highIntense false 11#4))).left = blinking .highIntense false 0#4
      ∧ (after .tick (withLeft (blinking .intense true 11#4))).left = blinking .intense true 0#4 := by decide

/-- I2: Normal forces the indicator off and keeps the counter. -/
theorem test_set_normal_forces_off :
    (after (.set .left .normal) (withLeft (blinking .highIntense true 7#4))).left = blinking .normal false 7#4 := by decide

/-- I3: Intense to HighIntense keeps the indicator. -/
theorem test_set_keeps_indicator :
    (after (.set .left .highIntense) (withLeft (blinking .intense true 0#4))).left = blinking .highIntense true 0#4 := by
  decide

/-- I6 -/
theorem test_clear :
    (after .clear ((withLeft (blinking .intense true 0#4)).setDir .right (blinking .highIntense true 3#4))).left
        = blinking .normal false 0#4
      ∧ (after .clear ((withLeft (blinking .intense true 0#4)).setDir .right (blinking .highIntense true 3#4))).right
        = blinking .normal false 3#4 := by decide

/-- I7 -/
theorem test_get : (after (.get .right) (st.setDir .right (blinking .highIntense false 0#4))).out = some (.level 2#2) := by
  decide

/-- I9 -/
theorem test_status :
    (after .status
        { st with
          left := { blinking .intense false 3#4 with latch := true }
          right := blinking .highIntense true 7#4
          phase := 2
          lights := 0x0C#6 }).out = some (.status 0x00734CA9#32) := by decide

/-- The serialised word, low byte first (R41). -/
theorem test_statusBytes : statusBytes 0x00734CA9#32 = [0xA9#8, 0x4C#8, 0x73#8, 0x00#8] := by decide

/-- P3: the entry into phase 2 samples the levels. -/
theorem test_unit_samples_at_phase_2 :
    (after .unit { withLeft (blinking .intense false 0#4) with phase := 1, remaining := 1 }).remaining = 30
      ∧ (after .unit { withLeft (blinking .intense false 0#4) with phase := 1, remaining := 1 }).snapL = .intense
      ∧ (after .unit { withLeft (blinking .intense false 0#4) with phase := 1, remaining := 1 }).lights = 0x0C#6 := by
  decide

/-- P6: the entry into phase 1 does not. -/
theorem test_unit_does_not_sample_at_phase_1 :
    (after .unit { withLeft (blinking .highIntense false 0#4) with remaining := 1 }).snapL = .normal
      ∧ (after .unit { withLeft (blinking .highIntense false 0#4) with remaining := 1 }).remaining = 5
      ∧ (after .unit { withLeft (blinking .highIntense false 0#4) with remaining := 1 }).phase = 1 := by decide

/-- N1 -/
theorem test_nop : after .nop (withLeft (pending .intense 100)) = withLeft (pending .intense 100) := by decide

/-- RESET from a state with everything changed (R152). -/
theorem test_reset :
    after .reset { withLeft (pending .highIntense 9) with phase := 3, remaining := 2, snapR := .intense, lights := 0x0A#6 }
      = st := by decide

/-! ## Operations under other parameters -/

/-- B8 and B2: `MOD_FAST = 1` toggles on every tick; `OFF_ADVANCE = false` holds the counter while Off. -/
theorem test_tick_parameters :
    (blinking .highIntense false 4#4).tick { config50.params with modFast := 1 } = blinking .highIntense true 5#4
      ∧ (blinking .normal false 5#4).tick { config50.params with offAdvance := false } = blinking .normal false 5#4 := by
  decide

/-- D8, D9, D10, D13 and D14: the gate with `T = 0`, with the largest `T`, and with `CNT_W = 8`. -/
theorem test_gate_parameters :
    accept { config50.params with threshold := 0 } 5 5 = false
      ∧ accept { config50.params with threshold := 0 } 6 5 = true
      ∧ accept { config50.params with threshold := 0xFFFFFFFF } 0xFFFFFFFF 0 = false
      ∧ accept { config50.params with cntW := 8 } 0x10 0xF0 = false
      ∧ accept { config50.params with cntW := 8 } 0x30 0xF0 = true := by decide

/-! ## Steps, cycles, text -/

/-- The first step after reset runs the presented word, for a word of each row. -/
theorem test_withFetchWord_runs :
    ∀ w ∈ [0x00, 0x11, 0x24, 0x30, 0x40, 0x56, 0x60, 0x74, 0x80, 0xFF],
      completed (step (State.reset.withFetchWord 8 w)) = true := by decide

/-- I5: an illegal word is the fault that records it, code 1. -/
theorem test_illegal_word_faults : Fault.code (.illegalEvent 0x53#8) = 1
    ∧ completed (step (st.withFetchWord 8 0x53)) = false := by decide

/-- Events of one cycle in the order of R49, reads first. -/
theorem test_cycleOrder :
    cycleOrder [.unit, .tick, .service .right 1, .service .left 1, .sense .right true, .sense .left true, .clear, .get .left]
      = [.get .left, .clear, .sense .left true, .sense .right true, .service .left 1, .service .right 1, .tick, .unit] := by
  decide

theorem test_assemble_events :
    assembleLine "SENSE L, 1 ; a pulse" = some [.sense .left true]
      ∧ assembleLine "SERVICE R, now=0x1F" = some [.service .right 31]
      ∧ assembleLine "SET R, HighIntense" = some [.set .right .highIntense]
      ∧ assembleLine "; only a comment" = some [] := by decide

theorem test_assemble_pseudo_events :
    assembleLine "EDGE L, now=120" = some [.sense .left true, .service .left 120, .sense .left false]
      ∧ assembleLine "TICKS 3" = some [.tick, .tick, .tick]
      ∧ assembleLine "SETBOTH Intense" = some [.set .left .intense, .set .right .intense]
      ∧ assembleLine "SET L, 3" = none := by decide

/-- R95, the exact strings. -/
theorem test_commandEvents :
    commandEvents "Right Medium" = [.set .right .intense] ∧ commandEvents "left low" = []
      ∧ commandEvents "status" = [.status] := by decide

/-! ## Witnesses: states and operands that meet the hypotheses of the statements -/

theorem witness_EncodeOfDecodeGivesTheWordBack : decode ⟨0x24#8, 7⟩ = .event (.service .right 7) := by decide

theorem witness_DecoderFollowsMaskAndMatch :
    decode ⟨0x53#8, 0⟩ = .illegal 0x53#8 ∧ (∃ r ∈ opcodeMap, 0x53#8 &&& r.mask = r.pattern ∧ r.opcode = .set) := by decide

/-- One word for each part of `ReservedWord`. -/
theorem witness_ReservedWordsRaiseIllegalEvent :
    (∀ w ∈ [0x90#8, 0xE0#8, 0xFE#8, 0xF0#8, 0x18#8, 0x34#8, 0x31#8, 0x12#8, 0x53#8], ReservedWord w)
      ∧ (st.present [⟨0x57#8, 0⟩]).events = [⟨0x57#8, 0⟩] ∧ ReservedWord 0x57#8 := by decide

theorem witness_StepRunsTheDecodedEvent :
    (st.present [⟨0x30#8, 0⟩]).events = [⟨0x30#8, 0⟩] ∧ decode ⟨0x30#8, 0⟩ = .event .tick := by decide

theorem witness_StepWithoutAnEventIsIdle : State.reset.events = [] := rfl

theorem witness_LegalEventsCompleteAndFaultsAreKept :
    step (st.present [⟨0x53#8, 0⟩]) = .fault (.illegalEvent 0x53#8)
      ∧ (Run.advance { state := st.present [⟨0x53#8, 0⟩], fault := none }).fault = some (.illegalEvent 0x53#8) :=
  ⟨rfl, rfl⟩

theorem witness_StepKeepsTheParameters : step (st.present [encode .tick]) = .next (after .tick st) := rfl

theorem witness_ResetStateWithDefaultParameters : 50 < 2 ^ 32 := by decide

/-- Both clauses: a rising edge, and the two ways not to be one. -/
theorem witness_SenseLatchesARisingEdge :
    (st.dir .left).sensePrev = false
      ∧ ((withLeft { pending .normal 0 with sensePrev := true }).dir .left).sensePrev = true := by decide

/-- The three clauses, at the two sides of the threshold. -/
theorem witness_ServiceRunsTheGateAndAcknowledges :
    (st.dir .left).latch = false ∧ ((withLeft (pending .intense 100)).dir .left).latch = true
      ∧ ((150 : Int) - (100 : Nat)) % 2 ^ config50.params.cntW ≤ config50.params.threshold
      ∧ ((151 : Int) - (100 : Nat)) % 2 ^ config50.params.cntW > config50.params.threshold := by decide

theorem witness_ElapsedIsTheTrueTimeModuloTheWidth : 2 ^ 32 - 1 < 2 ^ 32 := by decide

theorem witness_EdgeIsAcceptedExactlyBeyondTheThreshold :
    ((withLeft (pending .intense 100)).dir .left).latch = true ∧ 2 ^ 32 - 1 < 2 ^ (withLeft (pending .intense 100)).params.cntW := by
  decide

theorem witness_GateAliasesLongTimesAndHasAPostResetWindow :
    ((withLeft (pending .intense 100)).dir .left).latch = true ∧ 50 < 2 ^ config50.params.cntW := by decide

/-- A configuration with the largest threshold. -/
theorem witness_LargestThresholdAcceptsNoEdge :
    (State.afterReset (defaultConfiguration (2 ^ 32 - 1) 1 (by decide))).params.threshold
      = 2 ^ (State.afterReset (defaultConfiguration (2 ^ 32 - 1) 1 (by decide))).params.cntW - 1 := by decide

theorem witness_EdgesMergeWhileOneIsPending : ((withLeft (pending .intense 100)).dir .left).latch = true := by decide

theorem witness_RejectedEdgeDoesNotMoveTheWindow :
    exec (.service .left 120) (withLeft (pending .intense 100))
        = .next (after (.service .left 120) (withLeft (pending .intense 100)))
      ∧ (after (.service .left 120) (withLeft (pending .intense 100))).out = some (.accepted false)
      ∧ 71 < 2 ^ (withLeft (pending .intense 100)).params.cntW := ⟨rfl, by decide, by decide⟩

/-- Each of the four writers changes a level. -/
theorem witness_LevelHasNoOtherWriters :
    (after (.set .left .intense) st).left.level ≠ st.left.level
      ∧ (after .clear (withLeft (pending .intense 100))).left.level ≠ .intense
      ∧ (after .reset (withLeft (pending .intense 100))).left.level ≠ .intense
      ∧ (after (.service .left 151) (withLeft (pending .intense 100))).left.level ≠ .intense := by decide

theorem witness_SenseSourceDrivesOnlyItsDirection :
    (Instr.service .left 151).agent = .edge .left ∧ exec (.service .left 151) st = .next (after (.service .left 151) st) :=
  ⟨rfl, rfl⟩

theorem witness_IndicatorIsOffAtTheTransitionToNormal :
    (withLeft (blinking .highIntense true 7#4)).left.level ≠ .normal
      ∧ (after .clear (withLeft (blinking .highIntense true 7#4))).left.level = .normal := by decide

theorem witness_ReadsHaveNoEffectAndHostEventsAreIdempotent : exec .clear st = .next (after .clear st) := rfl

/-- The clauses of TICK: Off with and without `OFF_ADVANCE`, Medium and Fast, toggling and not. -/
theorem witness_TickBlinksEachDirection :
    st.left.level = .normal ∧ st.params.offAdvance = true
      ∧ ({ config50.params with offAdvance := false } : Params).valid = true
      ∧ (8#4 : TickCounter).toNat % config50.params.modMedium = 0 ∧ (7#4 : TickCounter).toNat % config50.params.modMedium ≠ 0
      ∧ (9#4 : TickCounter).toNat % config50.params.modFast = 0 ∧ (8#4 : TickCounter).toNat % config50.params.modFast ≠ 0 := by
  decide

/-- The state after reset meets the per-direction invariant. -/
theorem left_good : st.left.Good st.params := ⟨by decide, rfl, fun _ => rfl, by decide⟩

theorem witness_DefaultModuliToggleAtTheListedCounters :
    st.params.modFast = 3 ∧ st.params.modMedium = 8 ∧ st.params.tickMod = 12 ∧ (st.dir .left).Good st.params
      ∧ exec .tick st = .next (after .tick st) := ⟨rfl, rfl, rfl, left_good, rfl⟩

theorem witness_OnlyTickCountsTicksAndLightsAnIndicator :
    (after .tick st).left.tickCounter ≠ st.left.tickCounter
      ∧ (withLeft (blinking .intense false 8#4)).left.indicatorOn = false
      ∧ (after .tick (withLeft (blinking .intense false 8#4))).left.indicatorOn = true := by decide

/-- The two clauses at `remaining` 2 and 1; phases 1 and 0 after the entry. -/
theorem witness_UnitCountsDownOrEntersTheNextPhase :
    1 < ({ st with remaining := 2 } : State).remaining ∧ ({ st with remaining := 1 } : State).remaining ≤ 1
      ∧ (after .unit { st with remaining := 1 }).phase = 1
      ∧ (after .unit { st with remaining := 1, phase := 3 }).phase = 0 := by decide

theorem witness_OnlyUnitAndResetMoveTheTraffic : exec .tick st = .next (after .tick st) := rfl

/-- Both conclusions: before the last strobe, and at it. -/
theorem witness_PhaseEndsOnExactlyItsLastUnit :
    (∀ i ∈ [Instr.tick, .unit], i ≠ .reset) ∧ unitCount [.tick, .unit] < st.remaining
      ∧ unitCount [.tick] + 1 = ({ st with remaining := 1 } : State).remaining := by decide

theorem witness_HalfCycleLastsItsTwoDurations :
    (∀ i ∈ List.replicate 19 Instr.unit, i ≠ .reset) ∧ st.phase = 0
      ∧ st.remaining = dur st.params.durTable st.snapL st.snapR st.phase
      ∧ unitCount (List.replicate 19 .unit) + 1
        = dur st.params.durTable st.snapL st.snapR st.phase + dur st.params.durTable st.snapL st.snapR (nextPhase st.phase) := by
  decide

theorem witness_StepKeepsTheInvariant : st.Good ∧ step st = .next (after .nop st) :=
  ⟨⟨left_good, left_good, rfl, by decide, by decide, by decide⟩, rfl⟩

theorem witness_ExactlyOneSideIsRed : execAll [.unit] (State.afterReset config50) = .next (after .unit st) := rfl

/-- Two states that differ in the right direction only. -/
theorem witness_DirectionsAreIndependent :
    st.dir .left = (st.setDir .right (pending .intense 100)).dir .left
      ∧ st.params = (st.setDir .right (pending .intense 100)).params
      ∧ exec .tick st = .next (after .tick st) := ⟨rfl, rfl, rfl⟩

theorem witness_ScaleTickRateAndSlowModulusHaveNoEffect :
    ∃ c : Configuration, c.params = { st.params with scale := 2, tickRate := 1, modSlow := 7 } :=
  ⟨⟨{ st.params with scale := 2, tickRate := 1, modSlow := 7 }, by decide⟩, rfl⟩

theorem witness_CycleIsAppliedInTheFixedOrder : cycleOrder [.tick, .nop, .get .left] = [.nop] ++ .get .left :: [.tick] := by
  decide

/-- The run in which one event comes over and over. -/
def repeated (i : Instr) (s : State) : Nat → State
  | 0 => s
  | n + 1 => after i (repeated i s n)

/-- The run of UNITs from reset: fair for the time base, and with no RESET. -/
theorem witness_FairTimeBaseEventuallyChangesTheLights :
    IsRun (fun _ => .unit) (repeated .unit st) ∧ WeaklyFair .unit (fun _ => .unit) (repeated .unit st)
      ∧ (∀ m : Nat, 0 ≤ m → (fun _ : Nat => Instr.unit) m ≠ .reset)
      ∧ (repeated .unit st 0).lights = pattern (repeated .unit st 0).phase :=
  ⟨fun _ => rfl, fun n _ => ⟨n, Nat.le_refl n, rfl⟩, fun _ _ h => (by cases h), rfl⟩

/-- The run of TICKs with the left level at Intense: fair for the ticker, and the level stays above Normal. -/
theorem witness_FairTickerEventuallyTogglesTheIndicator :
    IsRun (fun _ => .tick) (repeated .tick (withLeft (blinking .intense false 3#4)))
      ∧ WeaklyFair .tick (fun _ => .tick) (repeated .tick (withLeft (blinking .intense false 3#4)))
      ∧ ∀ m, 0 ≤ m → ((repeated .tick (withLeft (blinking .intense false 3#4)) m).dir .left).level ≠ .normal := by
  have hrun : IsRun (fun _ => .tick) (repeated .tick (withLeft (blinking .intense false 3#4))) := fun _ => rfl
  refine ⟨hrun, fun n _ => ⟨n, Nat.le_refl n, rfl⟩, fun m _ => ?_⟩
  induction m with
  | zero => decide
  | succ m ih =>
    rw [hrun.dir_succ m .left]
    simpa [dirAfter] using ih (Nat.zero_le m)

end Sys2Proof.Tests
end

section
/-! PROOFS. The statements of 00_scope.md: what one step does with the event that waits first (O7, O10, O11), which
configurations power-on refuses (O14), and the parameters that no rule reads (O48). -/

namespace Sys2Proof

/-- Decoding reads an encoded event's operands back (R61); the operand bus is read off apart from the word. -/
@[simp] theorem decode_encode (i : Instr) : decode (encode i) = .event i := by
  cases i with
  | nop => rfl
  | sense d v => cases d <;> cases v <;> rfl
  | service d now => exact (decode_withNow (encode (.service d 0)).word now).trans (by cases d <;> rfl)
  | tick => rfl
  | unit => rfl
  | set d l => cases d <;> cases l <;> rfl
  | clear => rfl
  | get d => cases d <;> rfl
  | status => rfl
  | reset => rfl

end Sys2Proof

namespace Sys2Proof.Machine

open Sys2Proof

/-! ## One step -/

theorem State.nextEvent_of_events {s : State} {e : Event} {es : List Event} (h : s.events = e :: es) :
    s.nextEvent = e := by
  simp only [State.nextEvent, h]

theorem State.consume_of_events {s : State} {e : Event} {es : List Event} (h : s.events = e :: es) :
    s.consume = { s with events := es } := by
  simp only [State.consume, h, List.tail_cons]

theorem step_of_decode_event {s : State} {i : Instr} (h : decode s.nextEvent = .event i) :
    step s = exec i s.consume := by
  simp only [step, h]

theorem step_of_decode_illegal {s : State} {w : EventWord} (h : decode s.nextEvent = .illegal w) :
    step s = .fault (.illegalEvent w) := by
  simp only [step, h]

/-- A step that completes has executed the event its word decodes to. -/
theorem exec_consume_of_step_next {s t : State} (h : step s = .next t) :
    ∃ i, decode s.nextEvent = .event i ∧ exec i s.consume = .next t := by
  cases hd : decode s.nextEvent with
  | event i => exact ⟨i, rfl, step_of_decode_event hd ▸ h⟩
  | illegal w => rw [step_of_decode_illegal hd] at h; cases h

/-- A step on a presented event is its execution, beside the events presented after it. -/
theorem step_present_encode (i : Instr) (s : State) (es : List Event) :
    step (s.present (encode i :: es)) = onNext (fun t => t.present es) (exec i s) := by
  rw [step_of_decode_event (i := i) (by simp), State.present_consume, exec_present]

/-- Settles O7: the two parts of a step, taking the event and running it, with the input `e :: es`. -/
theorem stepRunsTheDecodedEvent : Obligations.StepRunsTheDecodedEvent := by
  intro s e es i hes hdec
  rw [← State.consume_of_events hes]
  exact step_of_decode_event (by rwa [State.nextEvent_of_events hes])

/-- Settles O10, by induction on the presented events: a step on the first one leaves the others at the input. -/
theorem runOverPresentedEventsIsExecutionInOrder : Obligations.RunOverPresentedEventsIsExecutionInOrder := by
  intro is
  induction is with
  | nil => intro s; rfl
  | cons i is ih =>
    intro s
    simp only [List.length_cons, List.map_cons, stepN, execAll, step_present_encode]
    cases exec i s with
    | next t => exact ih t
    | fault f => rfl
    | refused r => rfl

/-! ## The inputs are kept -/

@[simp] theorem State.strobe_config (s : State) : s.strobe.config = s.config := by
  rcases s.strobe_cases with ⟨-, h⟩ | ⟨-, h⟩ <;> simp [h]

@[simp] theorem State.strobe_events (s : State) : s.strobe.events = s.events := by
  rcases s.strobe_cases with ⟨-, h⟩ | ⟨-, h⟩ <;> simp [h]

@[simp] theorem State.writeLevel_config (s : State) (d : Dir) (n : Level) : (s.writeLevel d n).config = s.config :=
  State.setDir_config ..

@[simp] theorem State.writeLevel_events (s : State) (d : Dir) (n : Level) : (s.writeLevel d n).events = s.events :=
  State.setDir_events ..

/-- No event writes a parameter or the input (R13). -/
theorem exec_sameInputs {i : Instr} {s t : State} (h : exec i s = .next t) : SameInputs s t := by
  cases i with
  | nop => cases h; exact ⟨rfl, rfl⟩
  | sense d v => cases h; simp [SameInputs]
  | service d now => cases h; simp [SameInputs]
  | tick => cases h; simp [SameInputs]
  | unit => cases h; simp [SameInputs]
  | set d l => cases h; simp [SameInputs]
  | clear => cases h; simp [SameInputs]
  | get d => cases h; exact ⟨rfl, rfl⟩
  | status => cases h; exact ⟨rfl, rfl⟩
  | reset => cases h; simp [SameInputs]

/-- Settles O11: the step takes the first event from the input, and its execution keeps both inputs. -/
theorem stepKeepsTheParameters : Obligations.StepKeepsTheParameters := by
  intro s t h
  obtain ⟨i, -, hexec⟩ := exec_consume_of_step_next h
  exact exec_sameInputs hexec

/-! ## Power-on -/

theorem exists_level_iff {P : Level → Prop} : (∃ l, P l) ↔ P .normal ∨ P .intense ∨ P .highIntense := by
  constructor
  · rintro ⟨l, h⟩
    cases l with
    | normal => exact .inl h
    | intense => exact .inr (.inl h)
    | highIntense => exact .inr (.inr h)
  · rintro (h | h | h) <;> exact ⟨_, h⟩

theorem mem_entries_iff_phaseDuration (v : PhaseDurations) (e : Nat) :
    e ∈ v.entries ↔ ∃ q, phaseDuration v q = e := by
  simp [PhaseDurations.entries, Fin.exists_fin_succ, phaseDuration, eq_comm]

theorem mem_entries_iff_durVector (r : DurRow) (e : Nat) : e ∈ r.entries ↔ ∃ b, e ∈ (durVector r b).entries := by
  simp [DurRow.entries, exists_level_iff, durVector]

theorem mem_entries_iff_durRow (t : DurTable) (e : Nat) : e ∈ t.entries ↔ ∃ a, e ∈ (durRow t a).entries := by
  simp [DurTable.entries, exists_level_iff, durRow]

/-- The entries of the table are exactly what `dur` looks up (R111). -/
theorem mem_entries_iff_dur (t : DurTable) (e : Nat) : e ∈ t.entries ↔ ∃ a b q, dur t a b q = e := by
  simp only [mem_entries_iff_durRow, mem_entries_iff_durVector, mem_entries_iff_phaseDuration, dur]

/-- The bounds of R8 on the list of entries, said of the lookups. -/
theorem entries_bounds_iff_dur_bounds (t : DurTable) (w : Nat) :
    (∀ e ∈ t.entries, 1 ≤ e ∧ e < 2 ^ w) ↔ ∀ a b q, 1 ≤ dur t a b q ∧ dur t a b q ≤ 2 ^ w - 1 := by
  simp only [Nat.le_sub_one_iff_lt (Nat.two_pow_pos w)]
  constructor
  · exact fun h a b q => h _ (dur_mem_entries t a b q)
  · intro h e he
    obtain ⟨a, b, q, rfl⟩ := (mem_entries_iff_dur t e).1 he
    exact h a b q

theorem powerOn_refused_iff (p : Params) : powerOn p = .refused .invalidConfiguration ↔ ¬ p.valid = true := by
  unfold powerOn
  split
  · next h => simp [h]
  · next h => simp [h]

/-- Settles O14: power-on refuses what is not valid, and validity is the listed constraints. -/
theorem powerOnRefusesExactlyBadParameters : Obligations.PowerOnRefusesExactlyBadParameters := by
  intro p
  rw [powerOn_refused_iff, valid_iff, entries_bounds_iff_dur_bounds]

/-! ## Parameters that no rule reads -/

/-- The parameters with other values for SCALE, TICK_RATE and MOD_SLOW (R9, R12, R104). -/
def withUnread (p : Params) (scale tickRate modSlow : Nat) : Params :=
  { p with scale := scale, tickRate := tickRate, modSlow := modSlow }

section Unread

variable (p : Params) (scale tickRate modSlow : Nat)

@[simp] theorem withUnread_durTable : (withUnread p scale tickRate modSlow).durTable = p.durTable := rfl

@[simp] theorem readNow_withUnread (now : Nat) :
    readNow (withUnread p scale tickRate modSlow) now = readNow p now := rfl

@[simp] theorem DirState.service_withUnread (now : Nat) (x : DirState) :
    x.service (withUnread p scale tickRate modSlow) now = x.service p now := rfl

@[simp] theorem DirState.clearAll_withUnread (x : DirState) :
    x.clearAll (withUnread p scale tickRate modSlow) = x.clearAll p := rfl

/-- No level has the rate Slow, so MOD_SLOW is not looked up (R104). -/
theorem modulus_rateOf_withUnread (l : Level) :
    modulus (withUnread p scale tickRate modSlow) (rateOf l) = modulus p (rateOf l) := by
  cases l <;> rfl

@[simp] theorem DirState.tick_withUnread (x : DirState) :
    x.tick (withUnread p scale tickRate modSlow) = x.tick p := by
  unfold DirState.tick
  rw [modulus_rateOf_withUnread]
  rfl

end Unread

section WithConfig

variable (s : State) (c : Configuration)

@[simp] theorem State.withConfig_params : (s.withConfig c).params = c.params := rfl
@[simp] theorem State.withConfig_left : (s.withConfig c).left = s.left := rfl
@[simp] theorem State.withConfig_right : (s.withConfig c).right = s.right := rfl
@[simp] theorem State.withConfig_phase : (s.withConfig c).phase = s.phase := rfl
@[simp] theorem State.withConfig_remaining : (s.withConfig c).remaining = s.remaining := rfl
@[simp] theorem State.withConfig_nextEvent : (s.withConfig c).nextEvent = s.nextEvent := rfl
@[simp] theorem State.withConfig_consume : (s.withConfig c).consume = s.consume.withConfig c := rfl

@[simp] theorem State.withConfig_dir (d : Dir) : (s.withConfig c).dir d = s.dir d := by cases d <;> rfl

@[simp] theorem State.withConfig_setDir (d : Dir) (x : DirState) :
    (s.withConfig c).setDir d x = (s.setDir d x).withConfig c := by cases d <;> rfl

@[simp] theorem State.withConfig_writeLevel (d : Dir) (n : Level) :
    (s.withConfig c).writeLevel d n = (s.writeLevel d n).withConfig c := by simp [State.writeLevel]

@[simp] theorem State.withConfig_returns (o : Option Output) :
    (s.withConfig c).returns o = (s.returns o).withConfig c := rfl

/-- The entry into a phase reads only DUR_TABLE (R113). -/
theorem State.withConfig_enter (h : c.params.durTable = s.params.durTable) (q : Phase) :
    (s.withConfig c).enter q = (s.enter q).withConfig c := by
  unfold State.enter
  rw [State.withConfig_params, h]
  split <;> rfl

theorem State.withConfig_strobe (h : c.params.durTable = s.params.durTable) :
    (s.withConfig c).strobe = s.strobe.withConfig c := by
  unfold State.strobe
  rw [State.withConfig_remaining, State.withConfig_phase, State.withConfig_enter s c h]
  split <;> rfl

variable {s c} {scale tickRate modSlow : Nat}

/-- The execution of an event commutes with a change of the parameters that no rule reads. -/
theorem exec_withConfig (i : Instr) (h : c.params = withUnread s.params scale tickRate modSlow) :
    exec i (s.withConfig c) = onNext (fun t => t.withConfig c) (exec i s) := by
  cases i with
  | nop => rfl
  | sense d v => simp [exec, execSense, onNext]
  | service d now => simp [exec, execService, onNext, h]
  | tick => simp [exec, execTick, onNext, h]
  | unit => simp [exec, execUnit, onNext, h, State.withConfig_strobe]
  | set d l => simp [exec, execSet, onNext]
  | clear => simp [exec, execClear, onNext]
  | get d => simp [exec, execGet, onNext]
  | status => rfl
  | reset => simp [exec, execReset, onNext, h, State.withConfig_enter]

end WithConfig

/-- Settles O48: decoding does not see the configuration, and execution commutes with its change. -/
theorem scaleTickRateAndSlowModulusHaveNoEffect : Obligations.ScaleTickRateAndSlowModulusHaveNoEffect := by
  intro s c scale tickRate modSlow hc
  cases hd : decode s.nextEvent with
  | event i =>
    rw [step_of_decode_event (s := s.withConfig c) hd, step_of_decode_event hd, State.withConfig_consume]
    exact exec_withConfig i hc
  | illegal w =>
    rw [step_of_decode_illegal (s := s.withConfig c) hd, step_of_decode_illegal hd]
    rfl

end Sys2Proof.Machine
end

section
/-! PROOFS. The statements of 10_state.md: the invariant of R38 at reset and along steps (O44, O45, O46), who writes the
registers of one direction (O25, O36, O47), the status view (O31) and the returned-value port (O33). -/

namespace Sys2Proof.Machine

open Sys2Proof

/-! ## What an event does to the state -/

/-- Every event completes (R130). -/
theorem exec_enabled (i : Instr) (s : State) : Enabled i s := by
  cases i <;> exact ⟨_, rfl⟩

/-- No event writes a parameter (R13). -/
theorem exec_params {i : Instr} {s t : State} (h : exec i s = .next t) : t.params = s.params :=
  congrArg Configuration.params (exec_sameInputs h).1

theorem sameTraffic_returns (s : State) (o : Option Output) : SameTraffic s (s.returns o) :=
  ⟨rfl, rfl, rfl, rfl, rfl⟩

theorem sameTraffic_setDir (s : State) (d : Dir) (x : DirState) : SameTraffic s (s.setDir d x) := by
  simp [SameTraffic]

theorem SameTraffic.trans {s t u : State} (h : SameTraffic s t) (h' : SameTraffic t u) : SameTraffic s u := by
  obtain ⟨hp, hr, hl, hR, hlights⟩ := h
  obtain ⟨hp', hr', hl', hR', hlights'⟩ := h'
  exact ⟨hp'.trans hp, hr'.trans hr, hl'.trans hl, hR'.trans hR, hlights'.trans hlights⟩

/-- Only UNIT and RESET write the traffic phase controller's registers. -/
theorem exec_sameTraffic {i : Instr} {s t : State} (h : exec i s = .next t) (hunit : i ≠ .unit)
    (hreset : i ≠ .reset) : SameTraffic s t := by
  cases i with
  | nop => cases h; exact sameTraffic_returns ..
  | sense d v => cases h; exact (sameTraffic_setDir ..).trans (sameTraffic_returns ..)
  | service d now => cases h; exact (sameTraffic_setDir ..).trans (sameTraffic_returns ..)
  | tick => cases h; exact ((sameTraffic_setDir ..).trans (sameTraffic_setDir ..)).trans (sameTraffic_returns ..)
  | unit => exact absurd rfl hunit
  | set d l => cases h; exact (sameTraffic_setDir ..).trans (sameTraffic_returns ..)
  | clear => cases h; exact ((sameTraffic_setDir ..).trans (sameTraffic_setDir ..)).trans (sameTraffic_returns ..)
  | get d => cases h; exact sameTraffic_returns ..
  | status => cases h; exact sameTraffic_returns ..
  | reset => exact absurd rfl hreset

/-! ## One direction's invariant -/

theorem DirState.Good.writeLevel {p : Params} {x : DirState} (h : x.Good p) (n : Level) : (x.writeLevel n).Good p where
  counter_lt := by simpa using h.counter_lt
  pin_eq := by simp [h.pin_eq]
  normal_off := by simp +contextual
  last_lt := by simpa using h.last_lt

/-- The edge detector's registers are not in the invariant. -/
theorem DirState.Good.withGate {p : Params} {x : DirState} (h : x.Good p) (latch sensePrev : Bool) :
    ({ x with latch := latch, sensePrev := sensePrev } : DirState).Good p :=
  ⟨h.counter_lt, h.pin_eq, h.normal_off, h.last_lt⟩

theorem DirState.Good.acceptEdge {p : Params} {x : DirState} (h : x.Good p) {now : Nat} (hnow : now < 2 ^ p.cntW) :
    (x.acceptEdge now).Good p :=
  DirState.Good.writeLevel (x := { x with last := now }) ⟨h.counter_lt, h.pin_eq, h.normal_off, hnow⟩ _

/-- An acceptance writes `last` with a value read from the bus, so it fits (R26, R62). -/
theorem DirState.Good.service {p : Params} {x : DirState} (h : x.Good p) {now : Nat} (hnow : now < 2 ^ p.cntW) :
    (x.service p now).1.Good p := by
  rcases x.service_cases p now with ⟨-, hs⟩ | ⟨-, -, hs⟩ | ⟨-, -, hs⟩ <;> rw [hs]
  · exact h
  · exact h.withGate false x.sensePrev
  · exact (h.acceptEdge hnow).withGate false (x.acceptEdge now).sensePrev

theorem DirState.tick_pin_eq {p : Params} {x : DirState} (h : x.indPin = x.indicatorOn) :
    (x.tick p).indPin = (x.tick p).indicatorOn := by
  rcases x.tick_cases p with ⟨-, ht⟩ | ⟨-, ht⟩ | ⟨-, ht⟩ <;> rw [ht]
  · dsimp only; split <;> simp [DirState.toggle, h]
  · dsimp only; split <;> simp [DirState.toggle, h]

theorem DirState.tick_indicatorOn_of_normal {p : Params} {x : DirState} (h : x.level = .normal) :
    (x.tick p).indicatorOn = false := by
  rcases x.tick_cases p with ⟨-, ht⟩ | ⟨hl, -⟩ | ⟨hl, -⟩
  · rw [ht]
  · rw [h] at hl; cases hl
  · rw [h] at hl; cases hl

/-- TICK keeps the counter or increments it modulo `TICK_MOD` (R101). -/
theorem DirState.tick_tickCounter (p : Params) (x : DirState) :
    (x.tick p).tickCounter = x.tickCounter ∨ (x.tick p).tickCounter = nextTick p x.tickCounter := by
  rcases x.tick_cases p with ⟨-, ht⟩ | ⟨-, ht⟩ | ⟨-, ht⟩ <;> rw [ht]
  · dsimp only
    split
    · exact .inr rfl
    · exact .inl rfl
  · exact .inr rfl
  · exact .inr rfl

theorem config_nextTick_lt (c : Configuration) (k : TickCounter) : (nextTick c.params k).toNat < c.params.tickMod := by
  rw [config_nextTick_toNat]
  exact Nat.mod_lt _ (config_tickMod_pos c)

theorem DirState.Good.tick {c : Configuration} {x : DirState} (h : x.Good c.params) :
    (x.tick c.params).Good c.params where
  counter_lt := by
    rcases x.tick_tickCounter c.params with hk | hk <;> rw [hk]
    · exact h.counter_lt
    · exact config_nextTick_lt c _
  pin_eq := DirState.tick_pin_eq h.pin_eq
  normal_off hl := DirState.tick_indicatorOn_of_normal (by simpa using hl)
  last_lt := by simpa using h.last_lt

/-- RESET establishes the invariant whatever was there before (R121). -/
theorem DirState.clearAll_good (c : Configuration) (x : DirState) : (x.clearAll c.params).Good c.params where
  counter_lt := config_tickMod_pos c
  pin_eq := rfl
  normal_off _ := rfl
  last_lt := config_lastAcceptedReset_lt c

/-- Every event keeps the invariant of each direction. -/
theorem dirAfter_good {c : Configuration} {x : DirState} (h : x.Good c.params) (d : Dir) (i : Instr) :
    (dirAfter c.params d i x).Good c.params := by
  cases i with
  | nop => exact h
  | sense e v =>
    dsimp only [dirAfter]
    split
    · exact h.withGate _ _
    · exact h
  | service e now =>
    dsimp only [dirAfter]
    split
    · exact h.service (readNow_lt _ _)
    · exact h
  | tick => exact h.tick
  | unit => exact h
  | set e l =>
    dsimp only [dirAfter]
    split
    · exact h.writeLevel l
    · exact h
  | clear => exact h.writeLevel .normal
  | get e => exact h
  | status => exact h
  | reset => exact DirState.clearAll_good c x

/-! ## The traffic phase controller's invariant -/

/-- R38 (5), (6) and (7): the controller's part of `State.Good`. -/
structure State.TrafficGood (s : State) : Prop where
  lights_eq : s.lights = pattern s.phase
  remaining_pos : 1 ≤ s.remaining
  remaining_lt : s.remaining < 2 ^ s.params.durW
  remaining_le : s.remaining ≤ dur s.params.durTable s.snapL s.snapR s.phase

/-- The invariant is that of each direction and that of the controller. -/
theorem State.good_iff (s : State) : s.Good ↔ (∀ d, (s.dir d).Good s.params) ∧ s.TrafficGood := by
  constructor
  · intro h
    refine ⟨fun d => ?_, h.lights_eq, h.remaining_pos, h.remaining_lt, h.remaining_le⟩
    cases d with
    | left => exact h.left
    | right => exact h.right
  · rintro ⟨hdir, ht⟩
    exact ⟨hdir .left, hdir .right, ht.lights_eq, ht.remaining_pos, ht.remaining_lt, ht.remaining_le⟩

theorem State.TrafficGood.of_sameTraffic {s t : State} (h : s.TrafficGood) (ht : SameTraffic s t)
    (hp : t.params = s.params) : t.TrafficGood := by
  obtain ⟨hphase, hrem, hsnapL, hsnapR, hlights⟩ := ht
  constructor
  · rw [hlights, hphase]; exact h.lights_eq
  · rw [hrem]; exact h.remaining_pos
  · rw [hrem, hp]; exact h.remaining_lt
  · rw [hrem, hp, hsnapL, hsnapR, hphase]; exact h.remaining_le

theorem State.TrafficGood.returns {s : State} (h : s.TrafficGood) (o : Option Output) : (s.returns o).TrafficGood :=
  h.of_sameTraffic (sameTraffic_returns s o) rfl

/-- The entry into a phase establishes the controller's invariant, since every duration fits (R8, R113). -/
theorem State.enter_trafficGood (s : State) (q : Phase) : (s.enter q).TrafficGood where
  lights_eq := by simp
  remaining_pos := by
    rw [State.enter_remaining]
    exact (config_dur_bounds s.config _ _ q).1
  remaining_lt := by
    rw [State.enter_remaining, State.enter_params]
    exact (config_dur_bounds s.config _ _ q).2
  remaining_le := by rw [State.enter_remaining, State.enter_params, State.enter_phase]

/-- Counting down from more than 1 stays in the bounds. -/
theorem State.TrafficGood.countDown {s : State} (h : s.TrafficGood) (hgt : 1 < s.remaining) :
    ({ s with remaining := s.remaining - 1 } : State).TrafficGood :=
  ⟨h.lights_eq, Nat.le_sub_one_of_lt hgt, (Nat.sub_le _ _).trans_lt h.remaining_lt,
    (Nat.sub_le _ _).trans h.remaining_le⟩

theorem State.TrafficGood.strobe {s : State} (h : s.TrafficGood) : s.strobe.TrafficGood := by
  rcases s.strobe_cases with ⟨hgt, hs⟩ | ⟨-, hs⟩ <;> rw [hs]
  · exact h.countDown hgt
  · exact s.enter_trafficGood _

theorem State.TrafficGood.exec {i : Instr} {s t : State} (h : s.TrafficGood) (hexec : exec i s = .next t) :
    t.TrafficGood := by
  by_cases hunit : i = .unit
  · subst hunit; cases hexec; exact h.strobe.returns none
  by_cases hreset : i = .reset
  · subst hreset; cases hexec; exact (State.enter_trafficGood _ 0).returns none
  exact h.of_sameTraffic (exec_sameTraffic hexec hunit hreset) (exec_params hexec)

/-! ## The invariant of R38 -/

/-- Every event keeps the invariant. -/
theorem State.Good.exec {i : Instr} {s t : State} (h : s.Good) (hexec : exec i s = .next t) : t.Good := by
  obtain ⟨hdir, htraffic⟩ := s.good_iff.1 h
  refine t.good_iff.2 ⟨fun d => ?_, htraffic.exec hexec⟩
  rw [exec_params hexec, exec_dir hexec d]
  exact dirAfter_good (c := s.config) (hdir d) d i

/-- Taking an event from the input touches no register. -/
theorem State.Good.consume {s : State} (h : s.Good) : s.consume.Good :=
  ⟨h.left, h.right, h.lights_eq, h.remaining_pos, h.remaining_lt, h.remaining_le⟩

/-- Settles O45: the step's event is taken from the input and executed, and both keep the invariant. -/
theorem stepKeepsTheInvariant : Obligations.StepKeepsTheInvariant := by
  intro s t h hstep
  obtain ⟨i, -, hexec⟩ := exec_consume_of_step_next hstep
  exact h.consume.exec hexec

/-- The state after reset is the one that an entry into phase 0 leaves (R152). -/
theorem State.afterReset_enter (c : Configuration) : (State.afterReset c).enter 0 = State.afterReset c := rfl

theorem State.afterReset_good (c : Configuration) : (State.afterReset c).Good := by
  have hdir := DirState.clearAll_good c (DirState.afterReset c.params)
  have htraffic : (State.afterReset c).TrafficGood := by
    rw [← State.afterReset_enter]
    exact State.enter_trafficGood _ 0
  refine (State.good_iff _).2 ⟨fun d => ?_, htraffic⟩
  cases d with
  | left => exact hdir
  | right => exact hdir

/-- Settles O44: reset writes each direction as RESET does, and the controller as an entry into phase 0. -/
theorem resetStateIsGood : Obligations.ResetStateIsGood :=
  ⟨State.afterReset_good, State.afterReset_good _⟩

/-- What every event keeps, a run of events keeps. -/
theorem execAll_induction {P : State → Prop} (hP : ∀ i s t, P s → exec i s = .next t → P t) {is : List Instr}
    {s t : State} (hs : P s) (h : execAll is s = .next t) : P t := by
  induction is generalizing s with
  | nil => cases h; exact hs
  | cons i is ih =>
    obtain ⟨u, hu⟩ := exec_enabled i s
    rw [execAll_cons_of_next hu] at h
    exact ih (hP i s u hs hu) h

theorem State.Good.execAll {is : List Instr} {s t : State} (h : s.Good) (hrun : execAll is s = .next t) : t.Good :=
  execAll_induction (fun _ _ _ hs hexec => hs.exec hexec) h hrun

/-- In a good state the lights are those of the phase (R38 (5)). -/
theorem State.Good.lit_eq {s : State} (h : s.Good) (l : Light) : s.lit l = (pattern s.phase).getLsbD (lightBit l) := by
  rw [State.lit, h.lights_eq]

/-- Settles O46: the run ends in a good state, whose lights are one of the four patterns of R66. -/
theorem exactlyOneSideIsRed : Obligations.ExactlyOneSideIsRed := by
  intro c es t hrun
  have hgood : t.Good := (State.afterReset_good c).execAll hrun
  simp only [hgood.lit_eq]
  generalize t.phase = q
  revert q
  decide

/-! ## Who writes a direction's registers -/

/-- SERVICE advances the level when it accepts, and keeps it otherwise (R84). -/
theorem DirState.service_level (p : Params) (now : Nat) (x : DirState) :
    (x.service p now).1.level = if (x.service p now).2 then nextLevel x.level else x.level := by
  rcases x.service_cases p now with ⟨-, hs⟩ | ⟨-, -, hs⟩ | ⟨-, -, hs⟩ <;> rw [hs]
  · rfl
  · rfl
  · exact DirState.writeLevel_level _ _

theorem DirState.service_tickCounter (p : Params) (now : Nat) (x : DirState) :
    (x.service p now).1.tickCounter = x.tickCounter := by
  rcases x.service_cases p now with ⟨-, hs⟩ | ⟨-, -, hs⟩ | ⟨-, -, hs⟩ <;> rw [hs]
  exact DirState.writeLevel_tickCounter _ _

/-- A level write can only turn the indicator off (R90). -/
theorem DirState.writeLevel_keeps_off {x : DirState} (h : x.indicatorOn = false) (n : Level) :
    (x.writeLevel n).indicatorOn = false := by
  simp [h]

theorem DirState.service_keeps_off {x : DirState} (h : x.indicatorOn = false) (p : Params) (now : Nat) :
    (x.service p now).1.indicatorOn = false := by
  rcases x.service_cases p now with ⟨-, hs⟩ | ⟨-, -, hs⟩ | ⟨-, -, hs⟩ <;> rw [hs]
  · exact h
  · exact h
  · exact DirState.writeLevel_keeps_off (x := { x with last := now }) h _

theorem exec_service_out {d : Dir} {now : Nat} {s t : State} (h : exec (.service d now) s = .next t) :
    t.out = some (.accepted ((s.dir d).service s.params (readNow s.params now)).2) := by
  cases h; rfl

/-- Settles O25, by the event: for SERVICE the level has changed only if the edge was accepted. -/
theorem levelHasNoOtherWriters : Obligations.LevelHasNoOtherWriters := by
  intro i s t d h hne
  rw [exec_dir h d] at hne ⊢
  cases i with
  | nop => exact absurd rfl hne
  | sense e v => by_cases he : e = d <;> simp [dirAfter, DirState.sample, he] at hne
  | service e now =>
    by_cases he : e = d
    · subst he
      rw [exec_service_out h]
      simp only [dirAfter, if_true, DirState.service_level] at hne ⊢
      split at hne
      · next hacc => simp [hacc]
      · exact absurd rfl hne
    · simp [dirAfter, he] at hne
  | tick => simp [dirAfter] at hne
  | unit => exact absurd rfl hne
  | set e l =>
    by_cases he : e = d
    · exact .inl ⟨l, by rw [he], by simp [dirAfter, he]⟩
    · simp [dirAfter, he] at hne
  | clear => exact .inr (.inl rfl)
  | get e => exact absurd rfl hne
  | status => exact absurd rfl hne
  | reset => exact .inr (.inr (.inl rfl))

/-- Only TICK and RESET write the tick counter (R24). -/
theorem dirAfter_tickCounter {i : Instr} (htick : i ≠ .tick) (hreset : i ≠ .reset) (p : Params) (d : Dir)
    (x : DirState) : (dirAfter p d i x).tickCounter = x.tickCounter := by
  cases i with
  | nop => rfl
  | sense e v => dsimp only [dirAfter]; split <;> rfl
  | service e now => dsimp only [dirAfter]; split <;> simp [DirState.service_tickCounter]
  | tick => exact absurd rfl htick
  | unit => rfl
  | set e l => dsimp only [dirAfter]; split <;> simp
  | clear => exact DirState.writeLevel_tickCounter _ _
  | get e => rfl
  | status => rfl
  | reset => exact absurd rfl hreset

/-- Only TICK turns an indicator on (R102). -/
theorem dirAfter_keeps_off {i : Instr} (htick : i ≠ .tick) {x : DirState} (h : x.indicatorOn = false) (p : Params)
    (d : Dir) : (dirAfter p d i x).indicatorOn = false := by
  cases i with
  | nop => exact h
  | sense e v => dsimp only [dirAfter]; split <;> exact h
  | service e now =>
    dsimp only [dirAfter]
    split
    · exact DirState.service_keeps_off h _ _
    · exact h
  | tick => exact absurd rfl htick
  | unit => exact h
  | set e l =>
    dsimp only [dirAfter]
    split
    · exact DirState.writeLevel_keeps_off h l
    · exact h
  | clear => exact DirState.writeLevel_keeps_off h .normal
  | get e => exact h
  | status => exact h
  | reset => rfl

/-- Settles O36, by the contrapositive of each clause: any other event keeps the counter, and keeps an indicator off. -/
theorem onlyTickCountsTicksAndLightsAnIndicator : Obligations.OnlyTickCountsTicksAndLightsAnIndicator := by
  intro i s t d h
  rw [exec_dir h d]
  constructor
  · intro hne
    by_contra hi
    rw [not_or] at hi
    exact hne (dirAfter_tickCounter hi.1 hi.2 _ _ _)
  · intro hoff hon
    by_contra htick
    rw [dirAfter_keeps_off htick hoff] at hon
    cases hon

/-- An event that names one direction leaves the other as it is (R39). -/
theorem dirAfter_other (p : Params) (d : Dir) (v : Bool) (now : Nat) (l : Level) (x : DirState) {i : Instr}
    (hi : i ∈ [Instr.sense d v, .service d now, .set d l, .get d]) : dirAfter p d.other i x = x := by
  have hne : d ≠ d.other := (Dir.other_ne d).symm
  simp only [List.mem_cons, List.not_mem_nil, or_false] at hi
  rcases hi with rfl | rfl | rfl | rfl <;> simp [dirAfter, hne]

/-- Settles O47: a direction's registers after an event are a function of the parameters and of that direction's
registers before it, and this function is the identity for an event that names the other direction. -/
theorem directionsAreIndependent : Obligations.DirectionsAreIndependent := by
  constructor
  · intro i d s₁ s₂ t₁ t₂ hp hd h₁ h₂
    rw [exec_dir h₁ d, exec_dir h₂ d, hp, hd]
  · intro s d v now l i hi
    obtain ⟨t, ht⟩ := exec_enabled i s
    exact ⟨t, ht, (exec_dir ht d.other).trans (dirAfter_other _ d v now l _ hi)⟩

/-! ## The status view -/

/-- The code of a phase is its ordinal (R66). -/
@[simp] theorem phaseCode_toNat (q : Phase) : (phaseCode q).toNat = q.val :=
  Nat.mod_eq_of_lt q.isLt

/-- The layout of R35: each field of the word is the part that stands at its bits. -/
theorem statusLayout_fields (top : BitVec 8) (tickR tickL : BitVec 4) (latchR latchL : Bool) (lights : BitVec 6)
    (phase : BitVec 2) (pinR pinL : Bool) (levelR levelL : BitVec 2)
    {w : BitVec (8 + 4 + 4 + 1 + 1 + 6 + 2 + 1 + 1 + 2 + 2)}
    (hw : w = top ++ tickR ++ tickL ++ BitVec.ofBool latchR ++ BitVec.ofBool latchL ++ lights ++ phase
      ++ BitVec.ofBool pinR ++ BitVec.ofBool pinL ++ levelR ++ levelL) :
    w.extractLsb' 0 2 = levelL ∧ w.extractLsb' 2 2 = levelR ∧ w.getLsbD 4 = pinL ∧ w.getLsbD 5 = pinR
      ∧ w.extractLsb' 6 2 = phase ∧ w.extractLsb' 8 6 = lights ∧ w.getLsbD 14 = latchL ∧ w.getLsbD 15 = latchR
      ∧ w.extractLsb' 16 4 = tickL ∧ w.extractLsb' 20 4 = tickR ∧ w.extractLsb' 24 8 = top := by
  subst hw
  simp (disch := omega) only [BitVec.extractLsb'_append_eq_of_add_le, BitVec.extractLsb'_append_eq_of_le,
    BitVec.getLsbD_append, Nat.reduceSub, Nat.reduceLT, reduceIte, BitVec.extractLsb'_eq_self]
  simp only [BitVec.getLsbD_ofBool, decide_true, Bool.true_and, and_self]

/-- Settles O31: each field of the status view is one of the parts that `statusWord` puts together. -/
theorem statusReturnsTheStatusView : Obligations.StatusReturnsTheStatusView := by
  intro s
  refine ⟨statusWord s, rfl, ?_⟩
  rw [← phaseCode_toNat, BitVec.toNat_inj]
  exact statusLayout_fields _ _ _ _ _ _ _ _ _ _ _ (w := statusWord s) rfl

/-! ## The returned-value port -/

section Returns

variable (s : State) (o o' : Option Output)

@[simp] theorem State.returns_returns : (s.returns o).returns o' = s.returns o' := rfl

@[simp] theorem State.returns_setDir (d : Dir) (x : DirState) :
    (s.returns o).setDir d x = (s.setDir d x).returns o := by cases d <;> rfl

@[simp] theorem State.returns_writeLevel (d : Dir) (n : Level) :
    (s.returns o).writeLevel d n = (s.writeLevel d n).returns o := by simp [State.writeLevel]

@[simp] theorem State.returns_enter (q : Phase) : (s.returns o).enter q = (s.enter q).returns o := by
  unfold State.enter; split <;> rfl

@[simp] theorem State.returns_strobe : (s.returns o).strobe = s.strobe.returns o := by
  unfold State.strobe
  rw [State.returns_remaining, State.returns_phase, State.returns_enter]
  split <;> rfl

/-- The status view shows no returned value (R35). -/
@[simp] theorem statusWord_returns : statusWord (s.returns o) = statusWord s := rfl

end Returns

/-- Settles O33: every register write commutes with a write of the port, which the event's end then overwrites. -/
theorem returnedValueIsNeverRead : Obligations.ReturnedValueIsNeverRead := by
  intro i s o
  cases i with
  | nop => rfl
  | sense d v => simp [exec, execSense]
  | service d now => simp [exec, execService]
  | tick => simp [exec, execTick]
  | unit => simp [exec, execUnit]
  | set d l => simp [exec, execSet]
  | clear => simp [exec, execClear]
  | get d => simp [exec, execGet]
  | status => simp [exec, execStatus]
  | reset => simp [exec, execReset]

end Sys2Proof.Machine
end

section
/-! PROOFS. The statements of 20_memory.md: which events change no register and which are idempotent (O32), and the
order of the events of one hardware cycle (O49). -/

namespace Sys2Proof.Machine

open Sys2Proof

/-! ## Idempotent writes -/

/-- Writing the registers that are there already changes nothing. -/
theorem State.setDir_of_dir_eq {s : State} {d : Dir} {x : DirState} (h : s.dir d = x) : s.setDir d x = s := by
  subst h; cases d <;> rfl

@[simp] theorem DirState.writeLevel_writeLevel (x : DirState) (n : Level) :
    (x.writeLevel n).writeLevel n = x.writeLevel n := by cases n <;> rfl

@[simp] theorem State.writeLevel_dir (s : State) (d : Dir) (n : Level) :
    (s.writeLevel d n).dir d = (s.dir d).writeLevel n :=
  State.setDir_dir ..

/-- A level write changes nothing where the direction's registers are those a write of that level leaves. -/
theorem State.writeLevel_of_dir_eq {s : State} {d : Dir} {x : DirState} {n : Level} (h : s.dir d = x.writeLevel n) :
    s.writeLevel d n = s :=
  State.setDir_of_dir_eq (by rw [h, DirState.writeLevel_writeLevel])

@[simp] theorem DirState.clearAll_clearAll (p : Params) (x : DirState) :
    (x.clearAll p).clearAll p = x.clearAll p := rfl

/-- Entering a phase again samples the same levels and looks up the same duration (R113). -/
@[simp] theorem State.enter_enter (s : State) (q : Phase) : (s.enter q).enter q = s.enter q := by
  unfold State.enter; split <;> rfl

/-- RESET's part before the entry into phase 0 changes nothing where both directions are cleared already (R121). -/
theorem execReset_of_cleared {s : State} {x y : DirState} (hl : s.left = x.clearAll s.params)
    (hr : s.right = y.clearAll s.params) : execReset s = .next ((s.enter 0).returns none) := by
  have hleft : s.setDir .left (s.left.clearAll s.params) = s :=
    State.setDir_of_dir_eq (by rw [State.dir_left, hl, DirState.clearAll_clearAll])
  have hright : s.setDir .right (s.right.clearAll s.params) = s :=
    State.setDir_of_dir_eq (by rw [State.dir_right, hr, DirState.clearAll_clearAll])
  rw [execReset, hleft, hright]

/-- The events of the host port and of the system are idempotent (R47). The port that the first one writes is read by no
event (`returnedValueIsNeverRead`), so only the registers matter. -/
theorem exec_idempotent {i : Instr} {s t : State} (hsense : ∀ d v, i ≠ .sense d v)
    (hservice : ∀ d now, i ≠ .service d now) (htick : i ≠ .tick) (hunit : i ≠ .unit) (h : exec i s = .next t) :
    exec i t = .next t := by
  cases i with
  | nop => cases h; exact returnedValueIsNeverRead .nop s none
  | sense d v => exact absurd rfl (hsense d v)
  | service d now => exact absurd rfl (hservice d now)
  | tick => exact absurd rfl htick
  | unit => exact absurd rfl hunit
  | set d l =>
    cases h
    rw [returnedValueIsNeverRead, exec, execSet, State.writeLevel_of_dir_eq (s.writeLevel_dir d l)]
  | clear =>
    cases h
    rw [returnedValueIsNeverRead, exec, execClear,
      State.writeLevel_of_dir_eq (d := .left) (x := s.left) rfl,
      State.writeLevel_of_dir_eq (d := .right) (x := s.right) rfl]
  | get d => cases h; exact returnedValueIsNeverRead (.get d) s _
  | status => cases h; exact returnedValueIsNeverRead .status s _
  | reset =>
    cases h
    rw [returnedValueIsNeverRead, exec, execReset_of_cleared (x := s.left) (y := s.right) (by simp) (by simp),
      State.enter_enter]

/-- SERVICE leaves the latch clear in each of its three cases (R84). -/
@[simp] theorem DirState.service_latch (p : Params) (now : Nat) (x : DirState) : (x.service p now).1.latch = false := by
  rcases x.service_cases p now with ⟨hl, hs⟩ | ⟨-, -, hs⟩ | ⟨-, -, hs⟩ <;> rw [hs]
  exact hl

/-- Settles O32: the reads write the port only, and the other events are idempotent since their register writes are. -/
theorem readsHaveNoEffectAndHostEventsAreIdempotent : Obligations.ReadsHaveNoEffectAndHostEventsAreIdempotent := by
  refine ⟨fun s d => ⟨_, rfl⟩, fun s => ⟨_, rfl⟩, fun s d now => ?_, fun i s t => exec_idempotent⟩
  obtain ⟨t, ht⟩ := exec_enabled (.service d now) s
  exact ⟨t, ht, by simp [exec_dir ht d, dirAfter]⟩

/-! ## The order of one cycle -/

/-- `i` has a place before `j`, or the same place, in the order of R49. -/
abbrev RankLe (i j : Instr) : Prop := cycleRank i ≤ cycleRank j

theorem insertByRank_eq_orderedInsert (i : Instr) (js : List Instr) :
    insertByRank i js = js.orderedInsert RankLe i := by
  induction js with
  | nil => rfl
  | cons j js ih => rw [insertByRank, List.orderedInsert_cons, ih]

/-- The order of one cycle is an insertion sort, so the library's facts about it apply. -/
theorem cycleOrder_eq_insertionSort (is : List Instr) : cycleOrder is = is.insertionSort RankLe := by
  induction is with
  | nil => rfl
  | cons i is ih => rw [cycleOrder, insertByRank_eq_orderedInsert, ih, List.insertionSort_cons]

theorem cycleOrder_perm (is : List Instr) : (cycleOrder is).Perm is := by
  rw [cycleOrder_eq_insertionSort]
  exact List.perm_insertionSort RankLe is

theorem cycleOrder_pairwise (is : List Instr) : (cycleOrder is).Pairwise RankLe := by
  have htotal : Std.Total RankLe := ⟨fun _ _ => Nat.le_total _ _⟩
  have htrans : IsTrans Instr RankLe := ⟨fun _ _ _ => Nat.le_trans⟩
  rw [cycleOrder_eq_insertionSort]
  exact List.pairwise_insertionSort RankLe is

/-- The events of the first rank, NOP and the reads, write nothing but the returned-value port (R47, R120). -/
theorem exec_of_cycleRank_eq_zero {i : Instr} (h : cycleRank i = 0) (s : State) :
    ∃ o, exec i s = .next (s.returns o) := by
  cases i with
  | nop => exact ⟨_, rfl⟩
  | get d => exact ⟨_, rfl⟩
  | status => exact ⟨_, rfl⟩
  | sense d v => cases d <;> cases h
  | service d now => cases d <;> cases h
  | tick => cases h
  | unit => cases h
  | set d l => cases h
  | clear => cases h
  | reset => cases h

theorem execAll_of_cycleRank_eq_zero {is : List Instr} (h : ∀ i ∈ is, cycleRank i = 0) (s : State) :
    ∃ o, execAll is s = .next (s.returns o) := by
  induction is generalizing s with
  | nil => exact ⟨s.out, rfl⟩
  | cons i is ih =>
    rw [List.forall_mem_cons] at h
    obtain ⟨o, ho⟩ := exec_of_cycleRank_eq_zero h.1 s
    rw [execAll_cons_of_next ho]
    exact ih h.2 (s.returns o)

/-- What a sorted list holds before an event of the first rank is of the first rank. -/
theorem cycleRank_eq_zero_of_pairwise {a b : List Instr} {i : Instr} (h : (a ++ i :: b).Pairwise RankLe)
    (hi : cycleRank i = 0) : ∀ j ∈ a, cycleRank j = 0 := by
  obtain ⟨-, -, hab⟩ := List.pairwise_append.1 h
  intro j hj
  exact Nat.le_zero.1 (hi ▸ hab j hj i List.mem_cons_self)

/-- Settles O49: the order is that of a sort by rank, and a read is of the first rank, so only events that write no
register come before it. -/
theorem cycleIsAppliedInTheFixedOrder : Obligations.CycleIsAppliedInTheFixedOrder := by
  refine ⟨fun is => ⟨cycleOrder_perm is, cycleOrder_pairwise is⟩, fun is a b i s horder hread => ?_⟩
  have hrank : cycleRank i = 0 := by
    rcases hread with rfl | ⟨d, rfl⟩
    · rfl
    · rfl
  exact execAll_of_cycleRank_eq_zero (cycleRank_eq_zero_of_pairwise (horder ▸ cycleOrder_pairwise is) hrank) s

end Sys2Proof.Machine
end

section
/-! PROOFS. The statements of 30_encoding.md: decoding and encoding (O1, O2, O6), the legal and the reserved words
(O3, O4, O5), and beside them the light patterns (O41) and the pseudo-events (O50). -/

namespace Sys2Proof

/-- Settles O1: `decode_encode` is the statement. -/
theorem decodeOfEncodeGivesTheEventBack : Obligations.DecodeOfEncodeGivesTheEventBack :=
  decode_encode

/-! ## An event word is its four fields (R60, R61) -/

/-- A word with `z = 0` is in the one format of R60. -/
theorem eventWord_fields {w : EventWord} (hz : zField w = false) :
    eventWord (opField w) (dField w) (lvlField w) = w := by
  refine BitVec.eq_of_getLsbD_eq fun k hk => ?_
  have hbit : w[3] = false := hz
  simp only [eventWord, opField, dField, lvlField, BitVec.getLsbD_append, BitVec.getLsbD_ofBool,
    BitVec.getLsbD_extractLsb']
  interval_cases k <;> simp [hbit]

@[simp] theorem lvlField_eventWord (op : BitVec 4) (d : Bool) (a : BitVec 2) : lvlField (eventWord op d a) = a := by
  simp (disch := omega) only [lvlField, eventWord, BitVec.extractLsb'_append_eq_of_add_le,
    BitVec.extractLsb'_eq_self]

@[simp] theorem opField_and (w m : EventWord) : opField (w &&& m) = opField w &&& opField m :=
  BitVec.extractLsb'_and

@[simp] theorem zField_and (w m : EventWord) : zField (w &&& m) = (zField w && zField m) :=
  BitVec.getLsbD_and

@[simp] theorem lvlField_and (w m : EventWord) : lvlField (w &&& m) = lvlField w &&& lvlField m :=
  BitVec.extractLsb'_and

/-- An argument whose high bit is 0 is SENSE's: `0` and then the pin level (R61). -/
theorem pinArgument_eq {a : BitVec 2} (h : a.getLsbD 1 = false) : 0#1 ++ BitVec.ofBool (a.getLsbD 0) = a := by
  revert a; decide

@[simp] theorem bit_dirOfBit (b : Bool) : (dirOfBit b).bit = b := by cases b <;> rfl

/-- Every code but the reserved one is a level's (R64). -/
theorem exists_level_code {c : BitVec 2} (h : c ≠ 3#2) : ∃ l, levelOfCode c = some l ∧ l.code = c := by
  have hc : c = 0#2 ∨ c = 1#2 ∨ c = 2#2 := by revert c; decide
  rcases hc with rfl | rfl | rfl
  · exact ⟨.normal, rfl, rfl⟩
  · exact ⟨.intense, rfl, rfl⟩
  · exact ⟨.highIntense, rfl, rfl⟩

/-! ## The rows of the opcode map (R67, R71) -/

/-- The row of an operation. -/
def Opcode.row : Opcode → OpcodeRow
  | .nop => ⟨.nop, 0x00#8, 0xFF#8⟩
  | .sense => ⟨.sense, 0x10#8, 0xFA#8⟩
  | .service => ⟨.service, 0x20#8, 0xFB#8⟩
  | .tick => ⟨.tick, 0x30#8, 0xFF#8⟩
  | .unit => ⟨.unit, 0x40#8, 0xFF#8⟩
  | .set => ⟨.set, 0x50#8, 0xF8#8⟩
  | .clear => ⟨.clear, 0x60#8, 0xFF#8⟩
  | .get => ⟨.get, 0x70#8, 0xFB#8⟩
  | .status => ⟨.status, 0x80#8, 0xFF#8⟩
  | .reset => ⟨.reset, 0xFF#8, 0xFF#8⟩

@[simp] theorem Opcode.row_opcode (o : Opcode) : o.row.opcode = o := by cases o <;> rfl

theorem Opcode.row_mem (o : Opcode) : o.row ∈ opcodeMap := by cases o <;> decide

/-- The opcode map holds no other row. -/
theorem eq_row_of_mem {r : OpcodeRow} (h : r ∈ opcodeMap) : r = r.opcode.row :=
  (by decide : ∀ r ∈ opcodeMap, r = r.opcode.row) r h

/-- Two rows that match one word agree on the bits that both of them look at. -/
theorem pattern_and_mask_comm {w : EventWord} {r₁ r₂ : OpcodeRow} (h₁ : w &&& r₁.mask = r₁.pattern)
    (h₂ : w &&& r₂.mask = r₂.pattern) : r₁.pattern &&& r₂.mask = r₂.pattern &&& r₁.mask := by
  rw [← h₁, ← h₂, BitVec.and_assoc, BitVec.and_assoc, BitVec.and_comm r₁.mask]

/-- Any two rows differ at a bit that both look at, so no two match one word. -/
theorem opcodeMap_row_unique {w : EventWord} {r₁ r₂ : OpcodeRow} (hr₁ : r₁ ∈ opcodeMap) (hr₂ : r₂ ∈ opcodeMap)
    (h₁ : w &&& r₁.mask = r₁.pattern) (h₂ : w &&& r₂.mask = r₂.pattern) : r₁ = r₂ :=
  (by decide : ∀ r₁ ∈ opcodeMap, ∀ r₂ ∈ opcodeMap, r₁.pattern &&& r₂.mask = r₂.pattern &&& r₁.mask → r₁ = r₂)
    r₁ hr₁ r₂ hr₂ (pattern_and_mask_comm h₁ h₂)

/-- A word is of an operation exactly when it matches that operation's row. -/
theorem opcodeOf_eq_some_iff (w : EventWord) (o : Opcode) :
    opcodeOf w = some o ↔ w &&& o.row.mask = o.row.pattern := by
  constructor
  · intro h
    obtain ⟨r, hfind, rfl⟩ := Option.map_eq_some_iff.1 h
    rw [← eq_row_of_mem (List.mem_of_find?_eq_some hfind)]
    simpa [OpcodeRow.hits] using List.find?_some hfind
  · intro h
    cases hfind : opcodeMap.find? (fun r => r.hits w) with
    | none => simpa [OpcodeRow.hits, h] using List.find?_eq_none.1 hfind _ o.row_mem
    | some r =>
      have hr : r = o.row := opcodeMap_row_unique (List.mem_of_find?_eq_some hfind) o.row_mem
        (by simpa [OpcodeRow.hits] using List.find?_some hfind) h
      simp [opcodeOf, hfind, hr]

/-! ## What the decoder answers (R71) -/

/-- A row that looks at every bit of the word matches its own pattern only. -/
theorem eq_of_full_mask {w p : EventWord} (h : w &&& 0xFF#8 = p) : p = w :=
  h.symm.trans BitVec.and_allOnes

/-- A word that matches a row which fixes the operation and `z = 0` is its direction and argument in R60's format. -/
theorem eventWord_of_match {w m p : EventWord} {op : BitVec 4} (h : w &&& m = p) (hop : opField m = BitVec.allOnes 4)
    (hz : zField m = true) (hpop : opField p = op) (hpz : zField p = false) :
    eventWord op (dField w) (lvlField w) = w := by
  have hwz : zField w = false := by simpa [← h, hz] using hpz
  rw [← hpop, ← h, opField_and, hop, BitVec.and_allOnes, eventWord_fields hwz]

/-- As `eventWord_of_match`, for the rows that fix the argument 0 too. -/
theorem eventWord_of_match_noArgument {w p : EventWord} {op : BitVec 4} (h : w &&& 0xFB#8 = p) (hpop : opField p = op)
    (hpz : zField p = false) (hpl : lvlField p = 0#2) : eventWord op (dField w) 0#2 = w := by
  have hl : lvlField w = 0#2 := by
    rw [← hpl, ← h, lvlField_and]
    exact BitVec.and_allOnes.symm
  rw [← hl, eventWord_of_match h rfl rfl hpop hpz]

/-- SENSE's row fixes the high bit of the argument, so the pin level is all of it. -/
theorem pinArgument_of_match {w : EventWord} (h : w &&& 0xFA#8 = 0x10#8) :
    0#1 ++ BitVec.ofBool (vField w) = lvlField w := by
  have hhigh : w.getLsbD 1 = false := by simpa using congrArg (·.getLsbD 1) h
  simpa [vField, lvlField] using pinArgument_eq (a := lvlField w) (by simpa [lvlField] using hhigh)

/-- What the decoder can answer: an event that the word encodes; or `Illegal(w)`, for a word of no operation and for SET
with the reserved level code (R69). -/
theorem decode_cases (e : Event) :
    (∃ i, decode e = .event i ∧ (encode i).word = e.word) ∨
    (decode e = .illegal e.word ∧ ∀ o, opcodeOf e.word = some o → o = .set ∧ lvlField e.word = 3#2) := by
  cases ho : opcodeOf e.word with
  | none => exact .inr ⟨by simp only [decode, ho], nofun⟩
  | some o =>
    have hmatch := (opcodeOf_eq_some_iff _ _).1 ho
    cases o with
    | nop => exact .inl ⟨.nop, by simp only [decode, ho], eq_of_full_mask hmatch⟩
    | sense =>
      refine .inl ⟨.sense (dirOfBit (dField e.word)) (vField e.word), by simp only [decode, ho], ?_⟩
      simp only [encode, bit_dirOfBit, pinArgument_of_match hmatch]
      exact eventWord_of_match hmatch rfl rfl rfl rfl
    | service =>
      refine .inl ⟨.service (dirOfBit (dField e.word)) e.now, by simp only [decode, ho], ?_⟩
      simp only [encode, bit_dirOfBit]
      exact eventWord_of_match_noArgument hmatch rfl rfl rfl
    | tick => exact .inl ⟨.tick, by simp only [decode, ho], eq_of_full_mask hmatch⟩
    | unit => exact .inl ⟨.unit, by simp only [decode, ho], eq_of_full_mask hmatch⟩
    | set =>
      by_cases hl : lvlField e.word = 3#2
      · exact .inr ⟨by simp [decode, ho, hl, levelOfCode], fun o h => ⟨by cases h; rfl, hl⟩⟩
      · obtain ⟨l, hlevel, hcode⟩ := exists_level_code hl
        refine .inl ⟨.set (dirOfBit (dField e.word)) l, by simp only [decode, ho, hlevel], ?_⟩
        simp only [encode, bit_dirOfBit, hcode]
        exact eventWord_of_match hmatch rfl rfl rfl rfl
    | clear => exact .inl ⟨.clear, by simp only [decode, ho], eq_of_full_mask hmatch⟩
    | get =>
      refine .inl ⟨.get (dirOfBit (dField e.word)), by simp only [decode, ho], ?_⟩
      simp only [encode, bit_dirOfBit]
      exact eventWord_of_match_noArgument hmatch rfl rfl rfl
    | status => exact .inl ⟨.status, by simp only [decode, ho], eq_of_full_mask hmatch⟩
    | reset => exact .inl ⟨.reset, by simp only [decode, ho], eq_of_full_mask hmatch⟩

@[simp] theorem Decoded.withNow_withNow (r : Decoded) (now now' : Nat) :
    (r.withNow now').withNow now = r.withNow now := by
  cases r with
  | illegal w => rfl
  | event i => cases i <;> rfl

/-- What a word decodes to can be read off with any value on the operand bus. -/
theorem decode_eq_withNow (w : EventWord) (now now' : Nat) : decode ⟨w, now⟩ = (decode ⟨w, now'⟩).withNow now := by
  rw [decode_withNow w now, decode_withNow w now', Decoded.withNow_withNow]

theorem encode_word_of_decode {e : Event} {i : Instr} (h : decode e = .event i) : (encode i).word = e.word := by
  rcases decode_cases e with ⟨j, hj, hword⟩ | ⟨hill, -⟩
  · rw [h] at hj; cases hj; exact hword
  · rw [h] at hill; cases hill

/-- Settles O2: each answer of the decoder is an event that the word encodes, with SERVICE's operand from the bus. -/
theorem encodeOfDecodeGivesTheWordBack : Obligations.EncodeOfDecodeGivesTheWordBack := by
  intro e i h
  refine ⟨encode_word_of_decode h, ?_⟩
  rintro d now rfl
  have hbus : decode e = (decode e).withNow e.now := decode_eq_withNow e.word e.now e.now
  rw [h] at hbus
  cases hbus
  rfl

/-- The word of an encoded event decodes to that event whatever is on the operand bus, which SERVICE alone reads. -/
theorem decode_encode_word (i : Instr) (now : Nat) :
    decode ⟨(encode i).word, now⟩ = (Decoded.event i).withNow now := by
  rw [← decode_encode i]
  exact decode_eq_withNow (encode i).word now (encode i).now

/-- The legal words are the words of encoded events. -/
theorem exists_decode_iff_exists_encode (e : Event) : (∃ i, decode e = .event i) ↔ ∃ i, (encode i).word = e.word := by
  constructor
  · rintro ⟨i, h⟩
    exact ⟨i, encode_word_of_decode h⟩
  · rintro ⟨i, h⟩
    rw [show e = ⟨(encode i).word, e.now⟩ by rw [h], decode_encode_word]
    cases i <;> exact ⟨_, rfl⟩

theorem decode_eq_illegal_iff (e : Event) : decode e = .illegal e.word ↔ ¬ ∃ i, decode e = .event i := by
  rcases decode_cases e with ⟨i, h, -⟩ | ⟨h, -⟩ <;> simp [h]

/-- A word is legal exactly when it is of an operation, SET's level code 3 apart (R69). -/
theorem exists_decode_iff_opcodeOf (e : Event) :
    (∃ i, decode e = .event i) ↔ ∃ o, opcodeOf e.word = some o ∧ (o = .set → lvlField e.word ≠ 3#2) := by
  constructor
  · rintro ⟨i, h⟩
    rw [← encode_word_of_decode h]
    refine ⟨i.opcode, opcodeOf_encode i, fun hset => ?_⟩
    cases i with
    | set d l => simpa [encode] using level_code_ne_three l
    | _ => cases hset
  · rintro ⟨o, ho, hset⟩
    rcases decode_cases e with ⟨i, h, -⟩ | ⟨-, hill⟩
    · exact ⟨i, h⟩
    · exact absurd (hill o ho).2 (hset (hill o ho).1)

/-- Settles O4: each operation has one row, and a word is of an operation when it matches the row. -/
theorem decoderFollowsMaskAndMatch : Obligations.DecoderFollowsMaskAndMatch := by
  refine ⟨fun e => ⟨?_, fun h => (decode_eq_illegal_iff e).2 (not_exists.2 h)⟩,
    fun w r₁ h₁ r₂ h₂ => opcodeMap_row_unique h₁ h₂⟩
  rw [exists_decode_iff_opcodeOf]
  constructor
  · rintro ⟨o, ho, hset⟩
    exact ⟨o.row, o.row_mem, (opcodeOf_eq_some_iff _ _).1 ho, by simpa using hset⟩
  · rintro ⟨r, hr, hmatch, hset⟩
    rw [eq_row_of_mem hr] at hmatch
    exact ⟨r.opcode, (opcodeOf_eq_some_iff _ _).2 hmatch, hset⟩

/-! ## The legal words (R67) -/

/-- One event for each entry of the column "legal words" of R67, with 0 on the operand bus. -/
def legalEvents : List Instr :=
  [.nop, .sense .left false, .sense .left true, .sense .right false, .sense .right true, .service .left 0,
    .service .right 0, .tick, .unit, .set .left .normal, .set .left .intense, .set .left .highIntense,
    .set .right .normal, .set .right .intense, .set .right .highIntense, .clear, .get .left, .get .right, .status,
    .reset]

/-- The word does not depend on the operand, so each event has the word of one of the list. -/
theorem exists_legalEvent (i : Instr) : ∃ j ∈ legalEvents, (encode j).word = (encode i).word := by
  cases i with
  | service d now => exact ⟨.service d 0, by cases d <;> decide, rfl⟩
  | nop => exact ⟨.nop, by decide, rfl⟩
  | sense d v => exact ⟨.sense d v, by cases d <;> cases v <;> decide, rfl⟩
  | tick => exact ⟨.tick, by decide, rfl⟩
  | unit => exact ⟨.unit, by decide, rfl⟩
  | set d l => exact ⟨.set d l, by cases d <;> cases l <;> decide, rfl⟩
  | clear => exact ⟨.clear, by decide, rfl⟩
  | get d => exact ⟨.get d, by cases d <;> decide, rfl⟩
  | status => exact ⟨.status, by decide, rfl⟩
  | reset => exact ⟨.reset, by decide, rfl⟩

theorem exists_encode_iff_mem (w : EventWord) :
    (∃ i, (encode i).word = w) ↔ w ∈ legalEvents.map fun i => (encode i).word := by
  rw [List.mem_map]
  constructor
  · rintro ⟨i, rfl⟩
    exact exists_legalEvent i
  · rintro ⟨i, -, h⟩
    exact ⟨i, h⟩

/-- Settles O3: the listed words are those of `legalEvents`, each of which decodes to its event. -/
theorem legalWordsAreTheTwentyOfTheOpcodeMap : Obligations.LegalWordsAreTheTwentyOfTheOpcodeMap := by
  intro now
  refine ⟨fun w => (exists_decode_iff_exists_encode ⟨w, now⟩).trans (exists_encode_iff_mem w), ?_⟩
  exact ⟨decode_encode_word .nop now,
    decode_encode_word (.sense .left false) now, decode_encode_word (.sense .left true) now,
    decode_encode_word (.sense .right false) now, decode_encode_word (.sense .right true) now,
    decode_encode_word (.service .left now) now, decode_encode_word (.service .right now) now,
    decode_encode_word .tick now, decode_encode_word .unit now,
    decode_encode_word (.set .left .normal) now, decode_encode_word (.set .left .intense) now,
    decode_encode_word (.set .left .highIntense) now, decode_encode_word (.set .right .normal) now,
    decode_encode_word (.set .right .intense) now, decode_encode_word (.set .right .highIntense) now,
    decode_encode_word .clear now, decode_encode_word (.get .left) now, decode_encode_word (.get .right) now,
    decode_encode_word .status now, decode_encode_word .reset now⟩

end Sys2Proof

namespace Sys2Proof.Machine

open Sys2Proof

/-! ## The reserved words (R68, R69) -/

theorem not_reservedWord_encode (i : Instr) : ¬ ReservedWord (encode i).word := by
  obtain ⟨j, hj, hword⟩ := exists_legalEvent i
  rw [← hword]
  exact (by decide : ∀ j ∈ legalEvents, ¬ ReservedWord (encode j).word) j hj

/-- The operation codes other than RESET's that are in use (R67). -/
theorem eq_of_toNat_lt_nine {op : BitVec 4} (h : op.toNat < 9) :
    op = 0#4 ∨ op = 1#4 ∨ op = 2#4 ∨ op = 3#4 ∨ op = 4#4 ∨ op = 5#4 ∨ op = 6#4 ∨ op = 7#4 ∨ op = 8#4 := by
  revert op; decide

/-- R60's format with an operation below 9, unused bits 0 and no reserved argument is an event's word. -/
theorem exists_encode_eventWord {op : BitVec 4} {d : Bool} {a : BitVec 2} (hop : op.toNat < 9)
    (hd : opHasDirection op = false → d = false) (ha : opHasArgument op = false → a = 0#2)
    (hsense : op = 1#4 → a.getLsbD 1 = false) (hset : op = 5#4 → a ≠ 3#2) : ∃ i, (encode i).word = eventWord op d a := by
  rcases eq_of_toNat_lt_nine hop with rfl | rfl | rfl | rfl | rfl | rfl | rfl | rfl | rfl
  · exact ⟨.nop, by rw [hd rfl, ha rfl]; rfl⟩
  · exact ⟨.sense (dirOfBit d) (a.getLsbD 0), by rw [encode, bit_dirOfBit, pinArgument_eq (hsense rfl)]⟩
  · exact ⟨.service (dirOfBit d) 0, by rw [encode, bit_dirOfBit, ha rfl]⟩
  · exact ⟨.tick, by rw [hd rfl, ha rfl]; rfl⟩
  · exact ⟨.unit, by rw [hd rfl, ha rfl]; rfl⟩
  · obtain ⟨l, -, hl⟩ := exists_level_code (hset rfl)
    exact ⟨.set (dirOfBit d) l, by rw [encode, bit_dirOfBit, hl]⟩
  · exact ⟨.clear, by rw [hd rfl, ha rfl]; rfl⟩
  · exact ⟨.get (dirOfBit d), by rw [encode, bit_dirOfBit, ha rfl]⟩
  · exact ⟨.status, by rw [hd rfl, ha rfl]; rfl⟩

theorem exists_encode_of_not_reservedWord {w : EventWord} (h : ¬ ReservedWord w) : ∃ i, (encode i).word = w := by
  simp only [ReservedWord, not_or, not_and, Bool.not_eq_true, not_not] at h
  obtain ⟨hgap, hreset, hz, hd, ha, hsense, hset⟩ := h
  by_cases hop : opField w = 15#4
  · exact ⟨.reset, (hreset hop).symm⟩
  · have hlt : (opField w).toNat < 9 := by
      have hne : (opField w).toNat ≠ 15 := fun h15 => hop (BitVec.eq_of_toNat_eq h15)
      omega
    have hhigh : (lvlField w).getLsbD 1 = w.getLsbD 1 := by simp [lvlField]
    obtain ⟨i, hi⟩ := exists_encode_eventWord hlt (hd hop) (ha hop) (fun h => hhigh.trans (hsense h)) hset
    exact ⟨i, hi.trans (eventWord_fields (hz hop))⟩

theorem reservedWord_iff_decode_illegal (e : Event) : ReservedWord e.word ↔ decode e = .illegal e.word := by
  rw [decode_eq_illegal_iff, exists_decode_iff_exists_encode]
  constructor
  · rintro h ⟨i, hi⟩
    exact not_reservedWord_encode i (hi ▸ h)
  · exact not_imp_comm.1 exists_encode_of_not_reservedWord

/-! ## A run that goes on after an illegal word (R130) -/

/-- One event of a run at which a fault `f` is raised: the event is taken and an earlier record stays. -/
theorem Run.advance_of_fault {r : Run} {f : Fault} (h : step r.state = .fault f) :
    r.advance = { state := r.state.consume, fault := some (r.fault.getD f) } := by
  simp only [Run.advance, h, Option.or_some]

/-- A recorded fault is never cleared nor replaced. -/
theorem Run.advance_fault_of_recorded {r : Run} {f : Fault} (h : r.fault = some f) : r.advance.fault = some f := by
  unfold Run.advance
  cases step r.state with
  | next t => exact h
  | fault g => simp [h]
  | refused x => exact h

theorem Run.advanceN_fault_of_recorded {r : Run} {f : Fault} (h : r.fault = some f) (k : Nat) :
    (r.advanceN k).fault = some f := by
  induction k generalizing r with
  | zero => exact h
  | succ k ih => exact ih (Run.advance_fault_of_recorded h)

/-- Settles O5: the words that no event encodes are the reserved ones, and the record made at one is kept. -/
theorem reservedWordsRaiseIllegalEvent : Obligations.ReservedWordsRaiseIllegalEvent := by
  refine ⟨reservedWord_iff_decode_illegal, fun s e es hes hres => ?_⟩
  have hstep : step s = .fault (.illegalEvent e.word) :=
    step_of_decode_illegal (by rw [State.nextEvent_of_events hes, (reservedWord_iff_decode_illegal e).1 hres])
  have hadvance : ∀ f, Run.advance { state := s, fault := f }
      = { state := { s with events := es }, fault := some (f.getD (.illegalEvent e.word)) } := by
    intro f
    rw [Run.advance_of_fault (r := { state := s, fault := f }) hstep, State.consume_of_events hes]
  refine ⟨hstep, fun f => ⟨hadvance f, fun k => ?_⟩⟩
  rw [Run.advanceN, hadvance f]
  exact Run.advanceN_fault_of_recorded rfl k

/-- Settles O6: the legal words are those that the named events encode, and the two others are reserved. -/
theorem sampleWordsDecodeAsTheSpecSays : Obligations.SampleWordsDecodeAsTheSpecSays :=
  ⟨decode_encode .nop, decode_encode (.sense .right true), decode_encode (.service .right 7), decode_encode .tick,
    decode_encode .unit, decode_encode (.set .left .highIntense),
    (reservedWord_iff_decode_illegal ⟨0x57#8, 0⟩).1 (by decide), decode_encode .clear, decode_encode (.get .right),
    decode_encode .status, (reservedWord_iff_decode_illegal ⟨0xFE#8, 0⟩).1 (by decide), decode_encode .reset⟩

/-! ## Light patterns (R66) and pseudo-events (R73) -/

/-- Settles O41, light by light. -/
theorem eachPhaseLightsExactlyItsTwoLights : Obligations.EachPhaseLightsExactlyItsTwoLights := by
  refine ⟨⟨rfl, rfl, rfl, rfl⟩, fun l => ?_⟩
  cases l <;> decide

/-- The pulse of PRESS on one direction's registers: two samples, high and then low. -/
theorem execAll_press (s : State) (d : Dir) :
    ∃ t, execAll (press d) s = .next t ∧ t.dir d = ((s.dir d).sample true).sample false := by
  obtain ⟨t, ht⟩ := exec_enabled (.sense d true) s
  obtain ⟨u, hu⟩ := exec_enabled (.sense d false) t
  refine ⟨u, by rw [press, execAll_cons_of_next ht, execAll_cons_of_next hu, execAll], ?_⟩
  simp [exec_dir hu d, exec_dir ht d, dirAfter]

/-- Settles O50: PRESS is two samples of the pin; the two level writes of SETBOTH Normal are those of CLEAR. -/
theorem pseudoEventsExpandToRealEvents : Obligations.PseudoEventsExpandToRealEvents := by
  constructor
  · intro s d
    obtain ⟨t, hrun, hdir⟩ := execAll_press s d
    exact ⟨t, hrun, by simp [hdir, DirState.sample]⟩
  · intro s
    rw [setBoth, execAll_cons_of_next rfl, execAll_cons_of_next rfl]
    simp [execAll, exec, execClear]

end Sys2Proof.Machine
end

section
/-! PROOFS. The statements of 40_debounce.md: the gate (O18, O19, O21), its events SENSE and SERVICE (O16, O17, O26),
edges that merge or are rejected (O22, O23), and the level cycle (O24). -/

namespace Sys2Proof.Machine

open Sys2Proof

/-! ## Elapsed time (R80) -/

theorem elapsed_mod_last (w now last : Nat) : elapsed w now (last % 2 ^ w) = elapsed w now last := by
  have h : BitVec.ofNat w (last % 2 ^ w) = BitVec.ofNat w last := by apply BitVec.eq_of_toNat_eq; simp
  simp only [elapsed, h]

/-- The gate sees the true time modulo `2^CNT_W`. -/
theorem elapsed_add (w last k : Nat) : elapsed w (last + k) last = k % 2 ^ w := by
  have h := elapsed_eq_emod w (last + k) last
  rw [Nat.cast_add, add_sub_cancel_left] at h
  exact_mod_cast h

theorem elapsed_add_of_lt {w k : Nat} (hk : k < 2 ^ w) (last : Nat) : elapsed w (last + k) last = k := by
  rw [elapsed_add, Nat.mod_eq_of_lt hk]

/-- Settles O18: `elapsed` reads both counter values modulo `2^CNT_W`, so a wrap in between does not show. -/
theorem elapsedIsTheTrueTimeModuloTheWidth : Obligations.ElapsedIsTheTrueTimeModuloTheWidth := by
  refine ⟨fun w now last => ⟨elapsed_eq_emod w now last, elapsed_lt w now last⟩, fun w t0 E => ?_⟩
  rw [elapsed_mod_now, elapsed_mod_last, elapsed_add]
  exact ⟨rfl, Nat.mod_eq_of_lt⟩

/-! ## The gate's decision (R81) -/

theorem accept_readNow (p : Params) (now last : Nat) :
    accept p (readNow p now) last = decide (p.threshold < elapsed p.cntW now last) := by
  rw [accept, readNow, elapsed_mod_now]

/-- The decision with the difference of R15 written out, as O17 has it. -/
theorem accept_readNow_iff_emod (p : Params) (now last : Nat) :
    accept p (readNow p now) last = true ↔ (p.threshold : Int) < ((now : Int) - last) % 2 ^ p.cntW := by
  rw [accept_readNow, decide_eq_true_iff, ← elapsed_eq_emod, Nat.cast_lt]

theorem accept_of_largest_threshold {p : Params} (h : p.threshold = 2 ^ p.cntW - 1) (now last : Nat) :
    accept p now last = false := by
  have hlt := elapsed_lt p.cntW now last
  rw [← Bool.not_eq_true, accept_iff]
  omega

/-! ## SERVICE on one direction's registers (R84) -/

theorem DirState.service_of_latch_eq_false {x : DirState} (h : x.latch = false) (p : Params) (now : Nat) :
    x.service p now = (x, false) := by
  simp [DirState.service, h]

/-- A gate that rejects leaves the latch clear, whether or not an edge was pending, and writes nothing else. -/
theorem DirState.service_of_reject {p : Params} {now : Nat} {x : DirState} (h : accept p now x.last = false) :
    x.service p now = ({ x with latch := false }, false) := by
  rcases x.service_cases p now with ⟨hl, hs⟩ | ⟨-, -, hs⟩ | ⟨-, ha, -⟩
  · rw [hs, ← hl]
  · exact hs
  · rw [h] at ha; cases ha

theorem DirState.service_of_accept {p : Params} {now : Nat} {x : DirState} (hl : x.latch = true)
    (ha : accept p now x.last = true) : x.service p now = ({ x.acceptEdge now with latch := false }, true) := by
  simp [DirState.service, hl, ha]

/-- On a pending edge the gate's decision is what SERVICE returns. -/
theorem DirState.service_accepted {x : DirState} (h : x.latch = true) (p : Params) (now : Nat) :
    (x.service p now).2 = accept p now x.last := by
  cases ha : accept p now x.last with
  | false => rw [DirState.service_of_reject ha]
  | true => rw [DirState.service_of_accept h ha]

/-- SERVICE moves the window when it accepts, and keeps it otherwise. -/
theorem DirState.service_last (p : Params) (now : Nat) (x : DirState) :
    (x.service p now).1.last = if (x.service p now).2 then now else x.last := by
  rcases x.service_cases p now with ⟨-, hs⟩ | ⟨-, -, hs⟩ | ⟨-, -, hs⟩ <;> rw [hs]
  · rfl
  · rfl
  · exact DirState.writeLevel_last _ _

theorem DirState.levelWritten_writeLevel (x : DirState) (n : Level) : x.LevelWritten n (x.writeLevel n) := by
  cases n <;> simp [DirState.LevelWritten]

theorem DirState.levelWritten_acceptEdge (x : DirState) (now : Nat) :
    x.LevelWritten (nextLevel x.level) (x.acceptEdge now) :=
  DirState.levelWritten_writeLevel { x with last := now } (nextLevel x.level)

/-! ## The edge detector on one direction's registers (R83) -/

theorem DirState.sample_latch_of_rising {x : DirState} (h : x.sensePrev = false) : (x.sample true).latch = true := by
  simp [DirState.sample, h]

theorem DirState.sample_latch_of_not_rising {x : DirState} {v : Bool} (h : ¬(x.sensePrev = false ∧ v = true)) :
    (x.sample v).latch = x.latch := by
  have hedge : (!x.sensePrev && v) = false := by simpa using h
  rw [DirState.sample, hedge, Bool.or_false]

/-- A pending edge stays pending. -/
theorem DirState.sample_latch_of_latch {x : DirState} (h : x.latch = true) (v : Bool) : (x.sample v).latch = true := by
  simp [DirState.sample, h]

/-! ## The two events on the state -/

theorem exec_sense_dir {d : Dir} {v : Bool} {s t : State} (h : exec (.sense d v) s = .next t) :
    t.dir d = (s.dir d).sample v :=
  (exec_dir h d).trans (if_pos rfl)

theorem exec_service_dir {d : Dir} {now : Nat} {s t : State} (h : exec (.service d now) s = .next t) :
    t.dir d = ((s.dir d).service s.params (readNow s.params now)).1 :=
  (exec_dir h d).trans (if_pos rfl)

/-- What SERVICE answers on a pending edge (R81). -/
theorem exec_service_out_of_latch {d : Dir} {now : Nat} {s t : State} (h : exec (.service d now) s = .next t)
    (hl : (s.dir d).latch = true) :
    t.out = some (.accepted (decide (s.params.threshold < elapsed s.params.cntW now (s.dir d).last))) := by
  rw [exec_service_out h, DirState.service_accepted hl, accept_readNow]

/-- The events of an edge agent are SENSE and SERVICE of its direction (R4). -/
theorem agent_eq_edge_iff (i : Instr) (d : Dir) :
    i.agent = .edge d ↔ (∃ v, i = .sense d v) ∨ ∃ now, i = .service d now := by
  cases i <;> simp [Instr.agent]

/-- Settles O26, by the two events of a sense source: each names its direction, and neither is UNIT or RESET. -/
theorem senseSourceDrivesOnlyItsDirection : Obligations.SenseSourceDrivesOnlyItsDirection := by
  intro i s t d hagent h
  rw [exec_dir h d.other]
  rcases (agent_eq_edge_iff i d).1 hagent with ⟨v, rfl⟩ | ⟨now, rfl⟩
  · exact ⟨dirAfter_other _ d v 0 .normal _ (by simp), exec_sameTraffic h nofun nofun⟩
  · exact ⟨dirAfter_other _ d false now .normal _ (by simp), exec_sameTraffic h nofun nofun⟩

/-- Settles O16: the direction's registers are sampled, and the rest is O26's frame. -/
theorem senseLatchesARisingEdge : Obligations.SenseLatchesARisingEdge := by
  intro s d v
  obtain ⟨t, ht⟩ := exec_enabled (.sense d v) s
  obtain ⟨hother, htraffic⟩ := senseSourceDrivesOnlyItsDirection _ s t d rfl ht
  have hout : t.out = none := by cases ht; rfl
  refine ⟨t, ht, ?_⟩
  rw [exec_sense_dir ht]
  refine ⟨rfl, ?_, DirState.sample_latch_of_not_rising, rfl, rfl, ⟨rfl, rfl, rfl⟩, hother, htraffic,
    exec_sameInputs ht, hout⟩
  rintro ⟨hprev, rfl⟩
  exact DirState.sample_latch_of_rising hprev

/-- Settles O17, by the three cases of SERVICE: no pending edge, a rejection, an acceptance. -/
theorem serviceRunsTheGateAndAcknowledges : Obligations.ServiceRunsTheGateAndAcknowledges := by
  intro s d now
  obtain ⟨t, ht⟩ := exec_enabled (.service d now) s
  obtain ⟨hother, htraffic⟩ := senseSourceDrivesOnlyItsDirection _ s t d rfl ht
  have hgate := accept_readNow_iff_emod s.params now (s.dir d).last
  refine ⟨t, ht, ?_⟩
  rw [exec_service_dir ht, exec_service_out ht]
  refine ⟨fun hl => ?_, fun _ hle => ?_, fun hl hgt => ?_, hother, htraffic, exec_sameInputs ht⟩
  · rw [DirState.service_of_latch_eq_false hl]
    exact ⟨rfl, rfl⟩
  · rw [DirState.service_of_reject (Bool.eq_false_iff.2 fun ha => hle.not_gt (hgate.1 ha))]
    exact ⟨rfl, rfl⟩
  · rw [DirState.service_of_accept hl (hgate.2 hgt)]
    exact ⟨rfl, DirState.writeLevel_last _ _, DirState.levelWritten_acceptEdge _ _,
      DirState.writeLevel_sensePrev _ _, rfl⟩

/-! ## When an edge is accepted -/

/-- Settles O19: below `2^CNT_W` the elapsed time is `k` itself. -/
theorem edgeIsAcceptedExactlyBeyondTheThreshold : Obligations.EdgeIsAcceptedExactlyBeyondTheThreshold := by
  intro s d k hl hk
  obtain ⟨t, ht⟩ := exec_enabled (.service d ((s.dir d).last + k)) s
  refine ⟨t, ht, ?_⟩
  rw [exec_service_out_of_latch ht hl, elapsed_add_of_lt hk]

/-- Settles O21: no elapsed time exceeds `2^CNT_W - 1`, so the gate rejects. -/
theorem largestThresholdAcceptsNoEdge : Obligations.LargestThresholdAcceptsNoEdge := by
  intro s d now hT
  obtain ⟨t, ht⟩ := exec_enabled (.service d now) s
  refine ⟨t, ht, ?_⟩
  rw [exec_service_out ht, exec_service_dir ht, DirState.service_of_reject (accept_of_largest_threshold hT _ _)]
  exact ⟨rfl, rfl, rfl, rfl⟩

/-- Samples after a pending edge leave it pending and do not touch the level. -/
theorem execAll_sense_of_latch (d : Dir) (vs : List Bool) {s : State} (hl : (s.dir d).latch = true) :
    ∃ t, execAll (vs.map (Instr.sense d)) s = .next t ∧ (t.dir d).latch = true
      ∧ (t.dir d).level = (s.dir d).level := by
  induction vs generalizing s with
  | nil => exact ⟨s, rfl, hl, rfl⟩
  | cons v vs ih =>
    obtain ⟨u, hu⟩ := exec_enabled (.sense d v) s
    have hdir := exec_sense_dir hu
    obtain ⟨t, hrun, hlatch, hlevel⟩ := ih (s := u) (hdir ▸ DirState.sample_latch_of_latch hl v)
    exact ⟨t, (execAll_cons_of_next hu).trans hrun, hlatch, by rw [hlevel, hdir]; rfl⟩

/-- Settles O22: the samples keep the edge pending, and the SERVICE after them advances the level if it accepts. -/
theorem edgesMergeWhileOneIsPending : Obligations.EdgesMergeWhileOneIsPending := by
  intro s d vs now hl
  obtain ⟨t, hrun, hlatch, hlevel⟩ := execAll_sense_of_latch d vs hl
  obtain ⟨u, hu⟩ := exec_enabled (.service d now) t
  refine ⟨t, u, hrun, hlatch, hlevel, hu, ?_⟩
  rw [exec_service_dir hu, DirState.service_level, hlevel]
  refine ⟨DirState.service_latch _ _ _, ?_⟩
  split
  · exact .inr rfl
  · exact .inl rfl

/-- A SERVICE that answers 0 leaves the window where it was. -/
theorem exec_service_last_of_rejected {d : Dir} {n : Nat} {s t : State} (h : exec (.service d n) s = .next t)
    (hout : t.out = some (.accepted false)) : (t.dir d).last = (s.dir d).last := by
  have hrej : ((s.dir d).service s.params (readNow s.params n)).2 = false := by
    simpa [exec_service_out h] using hout
  simp [exec_service_dir h, DirState.service_last, hrej]

/-- Settles O23: neither the rejection nor the two samples of the next edge write `last`, so O19's gate decides it. -/
theorem rejectedEdgeDoesNotMoveTheWindow : Obligations.RejectedEdgeDoesNotMoveTheWindow := by
  intro s t d n k _ hk h hout
  obtain ⟨a, ha⟩ := exec_enabled (.sense d false) t
  obtain ⟨b, hb⟩ := exec_enabled (.sense d true) a
  obtain ⟨u, hu⟩ := exec_enabled (.service d ((s.dir d).last + k)) b
  have hdir : b.dir d = ((t.dir d).sample false).sample true := by rw [exec_sense_dir hb, exec_sense_dir ha]
  have hlatch : (b.dir d).latch = true := hdir ▸ DirState.sample_latch_of_rising rfl
  have hlast : (b.dir d).last = (s.dir d).last :=
    (congrArg DirState.last hdir).trans (exec_service_last_of_rejected h hout)
  have hparams : b.params = s.params := by rw [exec_params hb, exec_params ha, exec_params h]
  refine ⟨u, by rw [execAll_cons_of_next ha, execAll_cons_of_next hb, execAll_singleton, hu], ?_⟩
  rw [exec_service_out_of_latch hu hlatch, hlast, hparams, elapsed_add_of_lt hk]

/-! ## The level cycle (R82) -/

/-- Settles O24, level by level. -/
theorem levelAdvanceIsCyclicOnTheCodes : Obligations.LevelAdvanceIsCyclicOnTheCodes := by
  refine ⟨fun l => ?_, rfl, rfl, rfl⟩
  cases l <;> rfl

end Sys2Proof.Machine
end

section
/-! PROOFS. The statements of 41_intensity.md: the level writes of SET and CLEAR (O28, O29), the indicator at a return to
Normal (O27), and what GET answers (O30). -/

namespace Sys2Proof

/-! ## Level codes (R64) -/

theorem Level.code_injective : Function.Injective Level.code := by
  intro a b h
  have hsome : some a = some b := by rw [← levelOfCode_code a, h, levelOfCode_code]
  exact Option.some_inj.1 hsome

theorem Level.code_toNat_le_two (l : Level) : l.code.toNat ≤ 2 := by
  cases l <;> decide

end Sys2Proof

namespace Sys2Proof.Machine

open Sys2Proof

/-! ## `WriteLevel` on one direction's registers (R90) -/

theorem DirState.LevelWritten.indicator_off {x y : DirState} (h : x.LevelWritten .normal y) :
    y.indicatorOn = false ∧ y.indPin = false := by
  obtain ⟨-, hoff, -, -⟩ := h
  exact hoff rfl

theorem DirState.sameGate_writeLevel (x : DirState) (n : Level) : x.SameGate (x.writeLevel n) :=
  ⟨x.writeLevel_last n, x.writeLevel_latch n, x.writeLevel_sensePrev n⟩

/-- A SERVICE that answers 1 is a level write, of the next level in the cycle (R84). -/
theorem DirState.levelWritten_service {p : Params} {now : Nat} {x : DirState} (h : (x.service p now).2 = true) :
    x.LevelWritten (nextLevel x.level) (x.service p now).1 := by
  rcases x.service_cases p now with ⟨-, hs⟩ | ⟨-, -, hs⟩ | ⟨-, -, hs⟩ <;> rw [hs] at h ⊢
  · cases h
  · cases h
  · exact x.levelWritten_acceptEdge now

/-! ## The three level-writing events on the state -/

theorem exec_set_dir {d : Dir} {l : Level} {s t : State} (h : exec (.set d l) s = .next t) :
    t.dir d = (s.dir d).writeLevel l :=
  (exec_dir h d).trans (if_pos rfl)

theorem exec_clear_dir {s t : State} (h : exec .clear s = .next t) (d : Dir) :
    t.dir d = (s.dir d).writeLevel .normal :=
  exec_dir h d

theorem exec_service_levelWritten {d : Dir} {now : Nat} {s t : State} (h : exec (.service d now) s = .next t)
    (hout : t.out = some (.accepted true)) : (s.dir d).LevelWritten (nextLevel (s.dir d).level) (t.dir d) := by
  have hacc : ((s.dir d).service s.params (readNow s.params now)).2 = true := by
    simpa [exec_service_out h] using hout
  rw [exec_service_dir h]
  exact DirState.levelWritten_service hacc

/-- Settles O28: the direction's registers undergo one level write, and SET names neither the other direction nor the
traffic phase controller. -/
theorem setWritesTheLevel : Obligations.SetWritesTheLevel := by
  intro s d l
  obtain ⟨t, ht⟩ := exec_enabled (.set d l) s
  have hother : t.dir d.other = s.dir d.other :=
    (exec_dir ht d.other).trans (dirAfter_other _ d false 0 l _ (by simp))
  have hout : t.out = none := by cases ht; rfl
  refine ⟨t, ht, ?_, ?_, hother, exec_sameTraffic ht nofun nofun, exec_sameInputs ht, hout⟩
  · rw [exec_set_dir ht]
    exact DirState.levelWritten_writeLevel _ l
  · rw [exec_set_dir ht]
    exact DirState.sameGate_writeLevel _ l

/-- Settles O29: each direction undergoes a level write of Normal. -/
theorem clearWritesNormalToBoth : Obligations.ClearWritesNormalToBoth := by
  intro s
  obtain ⟨t, ht⟩ := exec_enabled .clear s
  have hout : t.out = none := by cases ht; rfl
  refine ⟨t, ht, fun d => ?_, exec_sameTraffic ht nofun nofun, exec_sameInputs ht, hout⟩
  rw [exec_clear_dir ht d]
  exact ⟨DirState.levelWritten_writeLevel _ .normal, DirState.sameGate_writeLevel _ .normal⟩

/-- Settles O27: the level has changed, so the event is one of the four writers of O25. RESET turns the indicator off
itself, and each of the others is a level write, here of Normal. -/
theorem indicatorIsOffAtTheTransitionToNormal : Obligations.IndicatorIsOffAtTheTransitionToNormal := by
  intro i s t d h hne hnormal
  have hchanged : (t.dir d).level ≠ (s.dir d).level := by rw [hnormal]; exact hne.symm
  rcases levelHasNoOtherWriters i s t d h hchanged with
    ⟨l, rfl, hl⟩ | rfl | rfl | ⟨⟨now, rfl⟩, hout, hnext⟩
  · obtain rfl : l = .normal := hl.symm.trans hnormal
    rw [exec_set_dir h]
    exact (DirState.levelWritten_writeLevel _ .normal).indicator_off
  · rw [exec_clear_dir h d]
    exact (DirState.levelWritten_writeLevel _ .normal).indicator_off
  · rw [exec_dir h d]
    exact ⟨rfl, rfl⟩
  · have hwritten := exec_service_levelWritten h hout
    rw [← hnext, hnormal] at hwritten
    exact hwritten.indicator_off

/-! ## GET (R93) -/

/-- Settles O30: GET answers the code of the level, and no two levels share a code. -/
theorem getReturnsTheLevelCode : Obligations.GetReturnsTheLevelCode := by
  intro s d
  exact ⟨(s.dir d).level.code, rfl, Level.code_toNat_le_two _, Level.code_injective.eq_iff (b := .normal),
    Level.code_injective.eq_iff (b := .intense), Level.code_injective.eq_iff (b := .highIntense)⟩

end Sys2Proof.Machine
end

section
/-! PROOFS. The statements of 42_blink.md: what TICK does to each direction (O34), when it toggles under the default
moduli (O35), and that under a fair ticker an indicator above Normal toggles (O53). -/

namespace Sys2Proof.Machine

open Sys2Proof

/-! ## The moduli in use (R22, R100) -/

/-- Above Normal the modulus is Medium's or Fast's; Slow's is never in use (R104). -/
theorem modulus_rateOf_eq_some_iff (p : Params) (l : Level) (m : Nat) :
    modulus p (rateOf l) = some m ↔ l = .intense ∧ m = p.modMedium ∨ l = .highIntense ∧ m = p.modFast := by
  cases l <;> simp [rateOf, modulus, eq_comm]

theorem exists_modulus_of_ne_normal (p : Params) {l : Level} (h : l ≠ .normal) :
    ∃ m, modulus p (rateOf l) = some m := by
  cases l with
  | normal => exact absurd rfl h
  | intense => exact ⟨p.modMedium, rfl⟩
  | highIntense => exact ⟨p.modFast, rfl⟩

/-! ## TICK on one direction's registers (R101) -/

theorem DirState.tick_of_normal {x : DirState} (h : x.level = .normal) (p : Params) :
    x.tick p = { x with
      indicatorOn := false
      indPin := false
      tickCounter := if p.offAdvance then nextTick p x.tickCounter else x.tickCounter } := by
  simp only [DirState.tick, h, rateOf, modulus]

theorem DirState.tick_of_mod_eq_zero {p : Params} {x : DirState} {m : Nat} (hm : modulus p (rateOf x.level) = some m)
    (h : x.tickCounter.toNat % m = 0) : x.tick p = { x.toggle with tickCounter := nextTick p x.tickCounter } := by
  simp only [DirState.tick, hm, if_pos h]

theorem DirState.tick_of_mod_ne_zero {p : Params} {x : DirState} {m : Nat} (hm : modulus p (rateOf x.level) = some m)
    (h : x.tickCounter.toNat % m ≠ 0) : x.tick p = { x with tickCounter := nextTick p x.tickCounter } := by
  simp only [DirState.tick, hm, if_neg h]

theorem DirState.sameGate_tick (p : Params) (x : DirState) : x.SameGate (x.tick p) :=
  ⟨x.tick_last p, x.tick_latch p, x.tick_sensePrev p⟩

/-- Above Normal the counter always advances. -/
theorem DirState.tick_tickCounter_of_ne_normal {x : DirState} (h : x.level ≠ .normal) (p : Params) :
    (x.tick p).tickCounter = nextTick p x.tickCounter := by
  obtain ⟨m, hm⟩ := exists_modulus_of_ne_normal p h
  by_cases h0 : x.tickCounter.toNat % m = 0
  · rw [DirState.tick_of_mod_eq_zero hm h0]
  · rw [DirState.tick_of_mod_ne_zero hm h0]

/-- Where Normal means off (R38 (3)), TICK toggles exactly when there is a modulus and it divides the counter. -/
theorem DirState.tick_indicatorOn_ne_iff {x : DirState} (hoff : x.level = .normal → x.indicatorOn = false)
    (p : Params) : (x.tick p).indicatorOn ≠ x.indicatorOn ↔
      ∃ m, modulus p (rateOf x.level) = some m ∧ x.tickCounter.toNat % m = 0 := by
  by_cases hl : x.level = .normal
  · simp [DirState.tick_of_normal hl, hoff hl, hl, rateOf, modulus]
  · obtain ⟨m, hm⟩ := exists_modulus_of_ne_normal p hl
    by_cases h0 : x.tickCounter.toNat % m = 0
    · simp [DirState.tick_of_mod_eq_zero hm h0, DirState.toggle, hm, h0]
    · simp [DirState.tick_of_mod_ne_zero hm h0, hm, h0]

/-! ## TICK on the state -/

theorem exec_tick_dir {s t : State} (h : exec .tick s = .next t) (d : Dir) : t.dir d = (s.dir d).tick s.params :=
  exec_dir h d

/-- Settles O34, by the level of each direction, and above Normal by the toggle test on the counter before its
increment. -/
theorem tickBlinksEachDirection : Obligations.TickBlinksEachDirection := by
  intro s
  obtain ⟨t, ht⟩ := exec_enabled .tick s
  have hout : t.out = none := by cases ht; rfl
  refine ⟨t, ht, fun d => ?_, exec_sameTraffic ht nofun nofun, exec_sameInputs ht, hout⟩
  have hnext : ∀ k, (nextTick s.params k).toNat = (k.toNat + 1) % s.params.tickMod := config_nextTick_toNat s.config
  rw [exec_tick_dir ht d]
  refine ⟨DirState.tick_level _ _, DirState.sameGate_tick _ _, fun hl => ?_, fun m hm => ?_⟩
  · rw [DirState.tick_of_normal hl]
    exact ⟨rfl, rfl, fun hadv => by simp [hadv, hnext], fun hadv => by simp [hadv]⟩
  · have hne : (s.dir d).level ≠ .normal := by rcases hm with ⟨hl, -⟩ | ⟨hl, -⟩ <;> simp [hl]
    have hmod := (modulus_rateOf_eq_some_iff _ _ _).2 hm
    refine ⟨fun h0 => ?_, fun h0 => ?_, ?_⟩
    · rw [DirState.tick_of_mod_eq_zero hmod h0]
      exact ⟨rfl, rfl⟩
    · rw [DirState.tick_of_mod_ne_zero hmod h0]
      exact ⟨rfl, rfl⟩
    · rw [DirState.tick_tickCounter_of_ne_normal hne, hnext]

/-! ## The default moduli (R105) -/

/-- The multiples of 8 in a 4-bit counter. -/
theorem toNat_mod_eight_eq_zero_iff : ∀ k : TickCounter, k.toNat % 8 = 0 ↔ k ∈ [0#4, 8#4] := by decide

/-- The multiples of 3 below the default `TICK_MOD`. -/
theorem toNat_mod_three_eq_zero_iff :
    ∀ k : TickCounter, k.toNat < 12 → (k.toNat % 3 = 0 ↔ k ∈ [0#4, 3#4, 6#4, 9#4]) := by decide

/-- Settles O35: a toggle needs a modulus that divides the counter, which the invariant keeps below `TICK_MOD`. -/
theorem defaultModuliToggleAtTheListedCounters : Obligations.DefaultModuliToggleAtTheListedCounters := by
  intro s t d hfast hmedium htickMod hgood ht
  have hlt : (s.dir d).tickCounter.toNat < 12 := htickMod ▸ hgood.counter_lt
  rw [exec_tick_dir ht d, DirState.tick_indicatorOn_ne_iff hgood.normal_off, ← toNat_mod_eight_eq_zero_iff,
    ← toNat_mod_three_eq_zero_iff _ hlt]
  cases hl : (s.dir d).level <;> simp [rateOf, modulus, hfast, hmedium]

/-! ## A run whose level stays above Normal (R164) -/

/-- No event of a run writes a parameter (R13). -/
theorem IsRun.config_eq {σ : Nat → Instr} {s : Nat → State} (h : IsRun σ s) (n : Nat) :
    (s n).config = (s 0).config := by
  induction n with
  | zero => rfl
  | succ n ih => exact (exec_sameInputs (h n)).1.trans ih

/-- A fair event comes again and again, since the block never blocks one (R130). -/
theorem WeaklyFair.exists_event {i : Instr} {σ : Nat → Instr} {s : Nat → State} (h : WeaklyFair i σ s) (n : Nat) :
    ∃ m, n ≤ m ∧ σ m = i :=
  h n fun m _ => exec_enabled i (s m)

section AboveNormal

variable {σ : Nat → Instr} {s : Nat → State} {n : Nat} {d : Dir}

/-- RESET would leave Normal, so while the level stays above Normal only TICK writes the counter. -/
theorem IsRun.tickCounter_succ_of_ne_tick (hrun : IsRun σ s) {k : Nat} (habove : ((s (k + 1)).dir d).level ≠ .normal)
    (htick : σ k ≠ .tick) : ((s (k + 1)).dir d).tickCounter = ((s k).dir d).tickCounter := by
  have hdir := hrun.dir_succ k d
  have hreset : σ k ≠ .reset := by
    intro hk
    rw [hdir, hk] at habove
    exact habove rfl
  rw [hdir]
  exact dirAfter_tickCounter htick hreset _ _ _

theorem IsRun.dir_succ_of_tick (hrun : IsRun σ s) {k : Nat} (hk : σ k = .tick) (d : Dir) :
    (s (k + 1)).dir d = ((s k).dir d).tick (s k).params := by
  rw [hrun.dir_succ k d, hk]
  rfl

variable (hrun : IsRun σ s) (hfair : WeaklyFair .tick σ s) (habove : ∀ m, n ≤ m → ((s m).dir d).level ≠ .normal)
include hrun hfair habove

/-- The next tick comes with the counter where it is: backwards from any later tick, the events before it keep the
counter, or one of them is an earlier tick. -/
theorem exists_tick_with_same_counter {k : Nat} (hk : n ≤ k) :
    ∃ m, k ≤ m ∧ σ m = .tick ∧ ((s m).dir d).tickCounter = ((s k).dir d).tickCounter := by
  obtain ⟨m, hkm, hm⟩ := hfair.exists_event k
  induction hkm using Nat.decreasingInduction with
  | self => exact ⟨m, le_rfl, hm, rfl⟩
  | of_succ k _ ih =>
    by_cases htick : σ k = .tick
    · exact ⟨k, le_rfl, htick, rfl⟩
    · obtain ⟨m', hkm', hm', heq⟩ := ih (by omega)
      exact ⟨m', by omega, hm', heq.trans (hrun.tickCounter_succ_of_ne_tick (habove _ (by omega)) htick)⟩

/-- At some point the counter has advanced by one, modulo `TICK_MOD`. -/
theorem exists_counter_advanced {k : Nat} (hk : n ≤ k) :
    ∃ m, n ≤ m ∧ ((s m).dir d).tickCounter.toNat
      = (((s k).dir d).tickCounter.toNat + 1) % (s 0).params.tickMod := by
  obtain ⟨m, hkm, hm, heq⟩ := exists_tick_with_same_counter hrun hfair habove hk
  refine ⟨m + 1, by omega, ?_⟩
  rw [hrun.dir_succ_of_tick hm, DirState.tick_tickCounter_of_ne_normal (habove m (hk.trans hkm)), heq, State.params,
    hrun.config_eq m]
  exact config_nextTick_toNat _ _

/-- At some point the counter has advanced by any positive number of ticks, modulo `TICK_MOD`. -/
theorem exists_counter_advanced_by (j : Nat) :
    ∃ m, n ≤ m ∧ ((s m).dir d).tickCounter.toNat
      = (((s n).dir d).tickCounter.toNat + (j + 1)) % (s 0).params.tickMod := by
  induction j with
  | zero => exact exists_counter_advanced hrun hfair habove le_rfl
  | succ j ih =>
    obtain ⟨k, hnk, hk⟩ := ih
    obtain ⟨m, hnm, hm⟩ := exists_counter_advanced hrun hfair habove hnk
    exact ⟨m, hnm, by rw [hm, hk, Nat.mod_add_mod, Nat.add_assoc]⟩

/-- The counter comes to 0: advance it from `c` by `(c + 1) * TICK_MOD - c`. -/
theorem exists_counter_eq_zero : ∃ m, n ≤ m ∧ ((s m).dir d).tickCounter = 0#4 := by
  obtain ⟨j, hj⟩ : ∃ j, ((s n).dir d).tickCounter.toNat + (j + 1)
      = (((s n).dir d).tickCounter.toNat + 1) * (s 0).params.tickMod := by
    obtain ⟨j, hj⟩ := Nat.exists_eq_add_of_le
      (Nat.le_mul_of_pos_right (((s n).dir d).tickCounter.toNat + 1) (config_tickMod_pos (s 0).config))
    exact ⟨j, by rw [State.params, hj]; omega⟩
  obtain ⟨m, hnm, hm⟩ := exists_counter_advanced_by hrun hfair habove j
  rw [hj, Nat.mul_mod_left] at hm
  exact ⟨m, hnm, BitVec.eq_of_toNat_eq hm⟩

/-- A tick at counter 0 toggles under either modulus (R101, the corner case of the wrapped counter). -/
theorem exists_toggle : ∃ m, n ≤ m ∧ ((s (m + 1)).dir d).indicatorOn ≠ ((s m).dir d).indicatorOn := by
  obtain ⟨k, hnk, hzero⟩ := exists_counter_eq_zero hrun hfair habove
  obtain ⟨m, hkm, hm, heq⟩ := exists_tick_with_same_counter hrun hfair habove hnk
  have hnm : n ≤ m := hnk.trans hkm
  refine ⟨m, hnm, ?_⟩
  obtain ⟨c, hmod⟩ := exists_modulus_of_ne_normal (s m).params (habove m hnm)
  rw [hrun.dir_succ_of_tick hm, DirState.tick_indicatorOn_ne_iff fun hl => absurd hl (habove m hnm)]
  exact ⟨c, hmod, by simp [heq, hzero]⟩

end AboveNormal

/-- Settles O53: a tick at counter 0 toggles the indicator, so on one side of that tick it differs from its value
at `n`. -/
theorem fairTickerEventuallyTogglesTheIndicator : Obligations.FairTickerEventuallyTogglesTheIndicator := by
  intro σ s n d hrun hfair habove
  obtain ⟨m, hnm, hne⟩ := exists_toggle hrun hfair habove
  by_cases hm : ((s m).dir d).indicatorOn = ((s n).dir d).indicatorOn
  · exact ⟨m + 1, by omega, hm ▸ hne⟩
  · exact ⟨m, hnm, hm⟩

end Sys2Proof.Machine
end

section
/-! PROOFS. The statements of 43_phase.md: what UNIT does (O37), who writes the traffic phase controller (O38), when a
phase and a half of the cycle end (O39, O40), that under a fair time base the lights change (O52), and the default
duration table (O42). -/

namespace Sys2Proof.Machine

open Sys2Proof

/-- Settles O38: `exec_sameTraffic` is the statement. -/
theorem onlyUnitAndResetMoveTheTraffic : Obligations.OnlyUnitAndResetMoveTheTraffic :=
  fun _ _ _ => exec_sameTraffic

/-! ## The default durations (R112) -/

/-- Settles O42, pair of levels by pair of levels: each difference of codes picks the vector of that cell. -/
theorem defaultTableFollowsTheLevelDifference : Obligations.DefaultTableFollowsTheLevelDifference := by
  intro a b q
  cases a with
  | normal => cases b <;> rfl
  | intense => cases b <;> rfl
  | highIntense => cases b <;> rfl

/-! ## The phase sequence (R110) -/

theorem nextPhase_val (q : Phase) : (nextPhase q).val = (q.val + 1) % 4 :=
  Fin.val_add q 1

theorem startsHalf_iff (q : Phase) : startsHalf q = true ↔ q = 0 ∨ q = 2 := by
  simp [startsHalf]

/-- Every second phase starts a half. -/
theorem startsHalf_nextPhase : ∀ q : Phase, startsHalf (nextPhase q) = !startsHalf q := by decide

/-- A phase shows other lights than the one before it (R66). -/
theorem pattern_nextPhase_ne : ∀ q : Phase, pattern (nextPhase q) ≠ pattern q := by decide

/-- From any phase, every phase comes within three changes. -/
theorem phase_eq_iterate_nextPhase : ∀ p q : Phase,
    q = p ∨ q = nextPhase p ∨ q = nextPhase (nextPhase p) ∨ q = nextPhase (nextPhase (nextPhase p)) := by decide

/-! ## Counting down -/

/-- The state with `k` units less to go in its phase. -/
def State.countDown (s : State) (k : Nat) : State := { s with remaining := s.remaining - k }

theorem State.countDown_countDown (s : State) (j k : Nat) : (s.countDown j).countDown k = s.countDown (k + j) := by
  simp only [State.countDown, Nat.sub_sub, Nat.add_comm]

theorem SameTraffic.refl (s : State) : SameTraffic s s := ⟨rfl, rfl, rfl, rfl, rfl⟩

theorem SameTraffic.remaining_eq {s t : State} (h : SameTraffic s t) : t.remaining = s.remaining := h.2.1

theorem SameTraffic.remaining_eq_sub {s t : State} {k : Nat} (h : SameTraffic (s.countDown k) t) :
    t.remaining = s.remaining - k := h.remaining_eq

theorem SameTraffic.countDown {s t : State} (h : SameTraffic s t) (k : Nat) :
    SameTraffic (s.countDown k) (t.countDown k) := by
  obtain ⟨hphase, hrem, hsnapL, hsnapR, hlights⟩ := h
  exact ⟨hphase, congrArg (· - k) hrem, hsnapL, hsnapR, hlights⟩

/-! ## The entry into the next phase (R113, R114) -/

/-- `t` stands at the entry into the phase after that of `s`. -/
structure State.EntersNext (s t : State) : Prop where
  phase_eq : t.phase = nextPhase s.phase
  lights_eq : t.lights = pattern t.phase
  remaining_eq : t.remaining = dur t.params.durTable t.snapL t.snapR t.phase
  snap_sampled : startsHalf t.phase = true → t.snapL = t.left.level ∧ t.snapR = t.right.level
  snap_kept : startsHalf t.phase = false → t.snapL = s.snapL ∧ t.snapR = s.snapR

theorem State.entersNext_enter (s : State) : s.EntersNext (s.enter (nextPhase s.phase)) where
  phase_eq := State.enter_phase ..
  lights_eq := by simp
  remaining_eq := by rw [State.enter_remaining, State.enter_params, State.enter_phase]
  snap_sampled h := by rw [State.enter_phase] at h; simp [h]
  snap_kept h := by rw [State.enter_phase] at h; simp [h]

theorem State.EntersNext.returns {s t : State} (h : s.EntersNext t) (o : Option Output) : s.EntersNext (t.returns o) :=
  ⟨h.phase_eq, h.lights_eq, h.remaining_eq, h.snap_sampled, h.snap_kept⟩

/-- Which state entered is decided by the phase and the snapshot, not by how much of the phase had passed. -/
theorem State.EntersNext.of_countDown {s s' t : State} {k : Nat} (h : s'.EntersNext t)
    (hs : SameTraffic (s.countDown k) s') : s.EntersNext t := by
  obtain ⟨hphase, -, hsnapL, hsnapR, -⟩ := hs
  exact ⟨h.phase_eq.trans (congrArg nextPhase hphase), h.lights_eq, h.remaining_eq, h.snap_sampled,
    fun hq => ⟨(h.snap_kept hq).1.trans hsnapL, (h.snap_kept hq).2.trans hsnapR⟩⟩

theorem State.EntersNext.phase_val {s t : State} (h : s.EntersNext t) : t.phase.val = (s.phase.val + 1) % 4 := by
  rw [h.phase_eq, nextPhase_val]

theorem State.EntersNext.startsHalf_eq {s t : State} (h : s.EntersNext t) :
    startsHalf t.phase = !startsHalf s.phase := by
  rw [h.phase_eq, startsHalf_nextPhase]

/-- The second phase of a half has its duration from the vector of the first (R114). -/
theorem State.EntersNext.remaining_of_startsHalf {s t : State} (h : s.EntersNext t) (hhalf : startsHalf s.phase = true)
    (hp : t.params = s.params) : t.remaining = dur s.params.durTable s.snapL s.snapR (nextPhase s.phase) := by
  obtain ⟨hsnapL, hsnapR⟩ := h.snap_kept (by rw [h.startsHalf_eq, hhalf]; rfl)
  rw [h.remaining_eq, hp, hsnapL, hsnapR, h.phase_eq]

theorem State.dur_pos (s : State) (a b : Level) (q : Phase) : 1 ≤ dur s.params.durTable a b q :=
  (config_dur_bounds s.config a b q).1

/-! ## UNIT (R115) -/

theorem exec_unit_countDown {s t : State} (h : exec .unit s = .next t) (hgt : 1 < s.remaining) :
    SameTraffic (s.countDown 1) t := by
  cases h
  rcases s.strobe_cases with ⟨-, hs⟩ | ⟨hle, -⟩
  · rw [hs]
    exact sameTraffic_returns ..
  · omega

theorem exec_unit_entersNext {s t : State} (h : exec .unit s = .next t) (hle : s.remaining ≤ 1) : s.EntersNext t := by
  cases h
  rcases s.strobe_cases with ⟨hgt, -⟩ | ⟨-, hs⟩
  · omega
  · rw [hs]
    exact s.entersNext_enter.returns none

/-- Settles O37: with more than 1 unit to go the strobe counts down, else it enters the next phase. -/
theorem unitCountsDownOrEntersTheNextPhase : Obligations.UnitCountsDownOrEntersTheNextPhase := by
  intro s
  obtain ⟨t, ht⟩ := exec_enabled .unit s
  have hleft : t.left = s.left := exec_dir ht .left
  have hright : t.right = s.right := exec_dir ht .right
  have hout : t.out = none := by cases ht; rfl
  refine ⟨t, ht, fun hgt => ?_, fun hle => ?_, hleft, hright, exec_sameInputs ht, hout⟩
  · obtain ⟨hphase, hrem, hsnapL, hsnapR, hlights⟩ := exec_unit_countDown ht hgt
    exact ⟨hrem, hphase, hsnapL, hsnapR, hlights⟩
  · have henter := exec_unit_entersNext ht hle
    refine ⟨henter.phase_val, henter.lights_eq, fun hq => ?_, fun hq => henter.snap_kept ?_, ?_⟩
    · rw [← hleft, ← hright]
      exact henter.snap_sampled ((startsHalf_iff _).2 hq)
    · rcases hq with hq | hq <;> rw [hq] <;> rfl
    · rw [← exec_params ht]
      exact henter.remaining_eq

/-! ## The UNITs of a list of events -/

theorem unitCount_cons_of_ne {i : Instr} (h : i ≠ .unit) (is : List Instr) : unitCount (i :: is) = unitCount is := by
  cases i with
  | unit => exact absurd rfl h
  | _ => rfl

/-- A list with more than `k` UNITs is cut at the UNIT that `k` others come before. -/
theorem exists_append_unit {es : List Instr} {k : Nat} (h : k < unitCount es) :
    ∃ a b, es = a ++ .unit :: b ∧ unitCount a = k ∧ unitCount es = k + (unitCount b + 1) := by
  induction es generalizing k with
  | nil => exact absurd h (Nat.not_lt_zero k)
  | cons i is ih =>
    by_cases hi : i = .unit
    · subst hi
      cases k with
      | zero => exact ⟨[], is, rfl, rfl, (Nat.zero_add _).symm⟩
      | succ k =>
        obtain ⟨a, b, rfl, ha, hb⟩ := ih (Nat.lt_of_succ_lt_succ h)
        exact ⟨.unit :: a, b, rfl, congrArg (· + 1) ha, by simp only [unitCount] at hb ⊢; omega⟩
    · rw [unitCount_cons_of_ne hi] at h ⊢
      obtain ⟨a, b, rfl, ha, hb⟩ := ih h
      exact ⟨i :: a, b, rfl, (unitCount_cons_of_ne hi a).trans ha, hb⟩

/-! ## A run within one phase, and to its end -/

/-- Every list of events completes (R130). -/
theorem execAll_enabled (es : List Instr) (s : State) : ∃ t, execAll es s = .next t := by
  induction es generalizing s with
  | nil => exact ⟨s, rfl⟩
  | cons i is ih =>
    obtain ⟨u, hu⟩ := exec_enabled i s
    rw [execAll_cons_of_next hu]
    exact ih u

/-- No event of a list writes a parameter (R13). -/
theorem execAll_params {es : List Instr} {s t : State} (h : execAll es s = .next t) : t.params = s.params :=
  execAll_induction (P := fun u => u.params = s.params) (fun _ _ _ hu hexec => (exec_params hexec).trans hu) rfl h

/-- The first part of a list that completes has completed itself. -/
theorem execAll_of_append {es fs : List Instr} {s t : State} (h : execAll (es ++ fs) s = .next t) :
    ∃ u, execAll es s = .next u ∧ execAll fs u = .next t := by
  obtain ⟨u, hu⟩ := execAll_enabled es s
  exact ⟨u, hu, execAll_append_of_next hu ▸ h⟩

/-- With fewer UNITs than there are to go, the controller only counts them, whatever falls between. -/
theorem execAll_countDown {es : List Instr} {s t : State} (hreset : ∀ i ∈ es, i ≠ .reset)
    (hcount : unitCount es < s.remaining) (h : execAll es s = .next t) :
    SameTraffic (s.countDown (unitCount es)) t := by
  induction es generalizing s with
  | nil => cases h; exact SameTraffic.refl _
  | cons i is ih =>
    rw [List.forall_mem_cons] at hreset
    obtain ⟨u, hu⟩ := exec_enabled i s
    rw [execAll_cons_of_next hu] at h
    by_cases hi : i = .unit
    · subst hi
      rw [unitCount] at hcount ⊢
      have hstep : SameTraffic (s.countDown 1) u := exec_unit_countDown hu (by omega)
      have hrem := hstep.remaining_eq_sub
      have hrest := ih hreset.2 (by omega) h
      rw [← State.countDown_countDown]
      exact (hstep.countDown _).trans hrest
    · rw [unitCount_cons_of_ne hi] at hcount ⊢
      have hstep := exec_sameTraffic hu hi hreset.1
      have hrem := hstep.remaining_eq
      exact (hstep.countDown _).trans (ih hreset.2 (by omega) h)

/-- The UNIT that uses up what is left enters the next phase. -/
theorem execAll_entersNext {es : List Instr} {s t : State} (hreset : ∀ i ∈ es, i ≠ .reset)
    (hcount : unitCount es + 1 = s.remaining) (h : execAll (es ++ [.unit]) s = .next t) : s.EntersNext t := by
  obtain ⟨u, hu, hunit⟩ := execAll_of_append h
  have hdown := execAll_countDown hreset (by omega) hu
  have hrem := hdown.remaining_eq_sub
  rw [execAll_singleton] at hunit
  exact (exec_unit_entersNext hunit (by omega)).of_countDown hdown

/-- Settles O39: the events before the last strobe only count down, and the last strobe enters the next phase. -/
theorem phaseEndsOnExactlyItsLastUnit : Obligations.PhaseEndsOnExactlyItsLastUnit := by
  intro es s hreset hcount
  obtain ⟨t, ht⟩ := execAll_enabled es s
  obtain ⟨hphase, hrem, hsnapL, hsnapR, hlights⟩ := execAll_countDown hreset hcount ht
  refine ⟨t, ht, hphase, hsnapL, hsnapR, hlights, hrem, fun hlast => ?_⟩
  obtain ⟨u, hu⟩ := execAll_enabled (es ++ [.unit]) s
  exact ⟨u, hu, (execAll_entersNext hreset hlast hu).phase_val⟩

/-- Settles O40: the list is cut at the UNIT that ends the first phase; the second phase keeps the snapshot, so it lasts
its duration in the same vector, and the phase after it starts a half. -/
theorem halfCycleLastsItsTwoDurations : Obligations.HalfCycleLastsItsTwoDurations := by
  intro es s hreset hphase hrem hcount
  have hfirst := s.dur_pos s.snapL s.snapR s.phase
  have hsecond := s.dur_pos s.snapL s.snapR (nextPhase s.phase)
  have hhalf : startsHalf s.phase = true := (startsHalf_iff _).2 hphase
  obtain ⟨a, b, rfl, ha, hb⟩ := exists_append_unit (k := s.remaining - 1) (es := es) (by omega)
  simp only [List.mem_append, List.mem_cons] at hreset
  obtain ⟨t, ht⟩ := execAll_enabled (a ++ .unit :: b ++ [.unit]) s
  have hcut : a ++ .unit :: b ++ [.unit] = (a ++ [.unit]) ++ (b ++ [.unit]) := by simp
  obtain ⟨u, hu, hut⟩ := execAll_of_append (hcut ▸ ht)
  have hmid : s.EntersNext u := execAll_entersNext (fun i hi => hreset i (.inl hi)) (by omega) hu
  have hurem := hmid.remaining_of_startsHalf hhalf (execAll_params hu)
  have hend : u.EntersNext t := execAll_entersNext (fun i hi => hreset i (.inr (.inr hi))) (by omega) hut
  obtain ⟨hsnapL, hsnapR⟩ := hend.snap_sampled (by rw [hend.startsHalf_eq, hmid.startsHalf_eq, Bool.not_not, hhalf])
  refine ⟨t, ht, ?_, hsnapL, hsnapR, hend.lights_eq, ?_⟩
  · rw [hend.phase_val, hmid.phase_val, Nat.mod_add_mod]
  · rw [hend.remaining_eq, execAll_params ht, hsnapL, hsnapR]

/-! ## A run with a fair time base (R164) -/

section FairTimeBase

variable {σ : Nat → Instr} {s : Nat → State} {n : Nat}
variable (hrun : IsRun σ s) (hfair : WeaklyFair .unit σ s) (hreset : ∀ m, n ≤ m → σ m ≠ .reset)
include hrun hfair hreset

/-- The next UNIT finds the controller as it is: backwards from any later UNIT, the events before it leave the
controller alone, or one of them is an earlier UNIT. -/
theorem exists_unit_with_same_traffic {k : Nat} (hk : n ≤ k) :
    ∃ m, k ≤ m ∧ σ m = .unit ∧ SameTraffic (s k) (s m) := by
  obtain ⟨m, hkm, hm⟩ := hfair.exists_event k
  induction hkm using Nat.decreasingInduction with
  | self => exact ⟨m, le_rfl, hm, SameTraffic.refl _⟩
  | of_succ k _ ih =>
    by_cases hunit : σ k = .unit
    · exact ⟨k, le_rfl, hunit, SameTraffic.refl _⟩
    · obtain ⟨m', hkm', hm', hsame⟩ := ih (by omega)
      exact ⟨m', by omega, hm', (exec_sameTraffic (hrun k) hunit (hreset k hk)).trans hsame⟩

/-- The phase ends, by strong induction on the units to go. -/
theorem exists_entersNext {k : Nat} (hk : n ≤ k) : ∃ m, k ≤ m ∧ (s k).EntersNext (s m) := by
  induction hr : (s k).remaining using Nat.strong_induction_on generalizing k with
  | _ r ih =>
    obtain ⟨m, hkm, hm, hsame⟩ := exists_unit_with_same_traffic hrun hfair hreset hk
    have hunit : exec .unit (s m) = .next (s (m + 1)) := hm ▸ hrun m
    have hrem := hsame.remaining_eq
    by_cases hle : (s m).remaining ≤ 1
    · exact ⟨m + 1, by omega, (exec_unit_entersNext hunit hle).of_countDown (k := 0) hsame⟩
    · have hdown := (hsame.countDown 1).trans (exec_unit_countDown hunit (by omega))
      have hrem' := hdown.remaining_eq_sub
      obtain ⟨m', hmm', hnext⟩ := ih _ (by omega) (by omega : n ≤ m + 1) rfl
      exact ⟨m', by omega, hnext.of_countDown hdown⟩

/-- Every phase comes, since the phases that come are closed under the sequence of R110. -/
theorem exists_phase_eq (q : Phase) : ∃ m, n ≤ m ∧ (s m).phase = q := by
  have hclosed : ∀ p, (∃ m, n ≤ m ∧ (s m).phase = p) → ∃ m, n ≤ m ∧ (s m).phase = nextPhase p := by
    rintro p ⟨k, hk, rfl⟩
    obtain ⟨m, hkm, hnext⟩ := exists_entersNext hrun hfair hreset hk
    exact ⟨m, hk.trans hkm, hnext.phase_eq⟩
  have hstart : ∃ m, n ≤ m ∧ (s m).phase = (s n).phase := ⟨n, le_rfl, rfl⟩
  rcases phase_eq_iterate_nextPhase (s n).phase q with rfl | rfl | rfl | rfl
  · exact hstart
  · exact hclosed _ hstart
  · exact hclosed _ (hclosed _ hstart)
  · exact hclosed _ (hclosed _ (hclosed _ hstart))

end FairTimeBase

/-- Settles O52: the phase at `n` ends and the next is entered, whose pattern is another one. -/
theorem fairTimeBaseEventuallyChangesTheLights : Obligations.FairTimeBaseEventuallyChangesTheLights := by
  intro σ s n hrun hfair hreset
  obtain ⟨m, hnm, hnext⟩ := exists_entersNext hrun hfair hreset le_rfl
  refine ⟨⟨m, hnm, hnext.phase_val, hnext.lights_eq⟩, exists_phase_eq hrun hfair hreset, fun hlights => ⟨m, hnm, ?_⟩⟩
  rw [hnext.lights_eq, hnext.phase_eq, hlights]
  exact pattern_nextPhase_ne _

end Sys2Proof.Machine
end

section
/-! PROOFS. The statements of 44_system.md: the step with nothing at the input (O8), NOP (O43), and RESET (O12). -/

namespace Sys2Proof.Machine

open Sys2Proof

/-! ## NOP and the empty input (R120) -/

theorem State.nextEvent_of_no_events {s : State} (h : s.events = []) : s.nextEvent = encode .nop := by
  simp only [State.nextEvent, h, idleEvent]

theorem State.consume_of_no_events {s : State} (h : s.events = []) : s.consume = s := by
  rw [State.consume, h, List.tail_nil, ← h]

/-- Settles O8: the idle event decodes to NOP, and an empty input has nothing to take. -/
theorem stepWithoutAnEventIsIdle : Obligations.StepWithoutAnEventIsIdle := by
  intro s hempty
  have hdecode : decode s.nextEvent = .event .nop := by rw [State.nextEvent_of_no_events hempty, decode_encode]
  rw [step_of_decode_event hdecode, State.consume_of_no_events hempty]
  rfl

/-- The first event of a list overwrites the returned-value port without reading it, so what the port held before the list
does not show (R34). -/
theorem execAll_cons_returns (i : Instr) (is : List Instr) (s : State) (o : Option Output) :
    execAll (i :: is) (s.returns o) = execAll (i :: is) s := by
  simp only [execAll, returnedValueIsNeverRead i s o]

/-- NOPs write at most the returned-value port. -/
theorem execAll_replicate_nop (k : Nat) (s : State) : ∃ o, execAll (List.replicate k .nop) s = .next (s.returns o) := by
  refine execAll_of_cycleRank_eq_zero (fun i hi => ?_) s
  rw [List.eq_of_mem_replicate hi, cycleRank]

/-- Settles O43: the NOPs leave at most another returned value, which the event after them overwrites. -/
theorem nopChangesNothing : Obligations.NopChangesNothing := by
  refine ⟨fun s => rfl, fun before after i k s => ?_⟩
  obtain ⟨t, ht⟩ := execAll_enabled before s
  obtain ⟨o, hnops⟩ := execAll_replicate_nop k t
  calc execAll (before ++ List.replicate k .nop ++ i :: after) s
      = execAll (List.replicate k .nop ++ i :: after) t := by rw [List.append_assoc, execAll_append_of_next ht]
    _ = execAll (i :: after) (t.returns o) := execAll_append_of_next hnops
    _ = execAll (i :: after) t := execAll_cons_returns i after t o
    _ = execAll (before ++ i :: after) s := (execAll_append_of_next ht).symm

/-! ## RESET (R121) -/

/-- RESET leaves the state after reset of the same configuration; the events that wait stay. -/
theorem exec_reset (s : State) : exec .reset s = .next { State.afterReset s.config with events := s.events } :=
  rfl

/-- One event of a run that completes: the fault record stays as it was. -/
theorem Run.advance_of_next {r : Run} {t : State} (h : step r.state = .next t) : r.advance = { r with state := t } := by
  simp only [Run.advance, h]

/-- Settles O12: each direction is cleared whatever it held, and the rest is the state after reset. -/
theorem resetWritesEveryRegister : Obligations.ResetWritesEveryRegister := by
  intro s
  have hexec := exec_reset s
  have hstep : step (s.present [encode .reset]) = .next { State.afterReset s.config with events := s.events } := by
    rw [step_present_encode, hexec, onNext, State.present_nil]
  refine ⟨_, hexec, fun f => Run.advance_of_next hstep, fun d => ?_, rfl, rfl, rfl, rfl, rfl, exec_sameInputs hexec, rfl⟩
  rw [exec_dir hexec d]
  exact ⟨rfl, rfl, rfl, rfl, rfl, rfl, rfl⟩

end Sys2Proof.Machine
end

section
/-! PROOFS. The statements of 60_exceptions.md: legal events complete and a fault is kept (O9), and no legal event is ever
blocked (O51). -/

namespace Sys2Proof.Machine

open Sys2Proof

/-! ## How a step ends (R68, R130) -/

/-- What a step can do: complete, or raise `IllegalEvent` at a word that waits and stands for no event. The empty input
cannot end it, since the idle event is legal. -/
theorem step_cases (s : State) :
    (∃ t, step s = .next t) ∨
    (∃ e es, s.events = e :: es ∧ decode e = .illegal e.word ∧ step s = .fault (.illegalEvent e.word)) := by
  rcases decode_cases s.nextEvent with ⟨i, hevent, -⟩ | ⟨hillegal, -⟩
  · rw [step_of_decode_event hevent]
    exact .inl (exec_enabled i s.consume)
  · have hfault := step_of_decode_illegal hillegal
    cases hevents : s.events with
    | nil =>
      rw [State.nextEvent_of_no_events hevents, decode_encode] at hillegal
      cases hillegal
    | cons e es =>
      rw [State.nextEvent_of_events hevents] at hillegal hfault
      exact .inr ⟨e, es, rfl, hillegal, hfault⟩

theorem illegalEvent_of_step_fault {s : State} {f : Fault} (h : step s = .fault f) :
    ∃ e es, s.events = e :: es ∧ decode e = .illegal e.word ∧ f = .illegalEvent e.word := by
  rcases step_cases s with ⟨t, ht⟩ | ⟨e, es, hevents, hillegal, hfault⟩
  · rw [ht] at h; cases h
  · rw [hfault] at h; cases h
    exact ⟨e, es, hevents, hillegal, rfl⟩

theorem step_ne_refused (s : State) (r : Refusal) : step s ≠ .refused r := by
  rcases step_cases s with ⟨t, ht⟩ | ⟨e, es, -, -, hfault⟩
  · rw [ht]; nofun
  · rw [hfault]; nofun

/-- A run with a recorded fault is not successful, however it goes on. -/
theorem Run.advanceN_not_successful_of_recorded {r : Run} {f : Fault} (h : r.fault = some f) (k : Nat) :
    (r.advanceN k).successful = false := by
  rw [Run.successful, Run.advanceN_fault_of_recorded h k, Option.isNone_some]

/-- Settles O9: execution is total, a step ends in one of its two ways, and a run never clears its record. -/
theorem legalEventsCompleteAndFaultsAreKept : Obligations.LegalEventsCompleteAndFaultsAreKept := by
  refine ⟨exec_enabled, fun s f h => ?_, step_ne_refused, fun k r f h => ?_, fun s f o h => ?_⟩
  · obtain ⟨e, es, hevents, hillegal, rfl⟩ := illegalEvent_of_step_fault h
    exact ⟨e, es, hevents, hillegal, rfl, rfl⟩
  · exact ⟨Run.advanceN_fault_of_recorded h k, Run.advanceN_not_successful_of_recorded h k⟩
  · exact congrArg Run.state (Run.advance_of_fault (r := { state := s, fault := o }) h)

/-! ## Every event stream has a run (R164) -/

/-- The run from `s₀`: its state after `n` events is the one that the first `n` events of the stream leave. -/
theorem exists_isRun (σ : Nat → Instr) (s₀ : State) : ∃ s : Nat → State, s 0 = s₀ ∧ IsRun σ s := by
  choose s hs using fun n => execAll_enabled ((List.range n).map σ) s₀
  refine ⟨s, (Host.Outcome.next.inj (hs 0)).symm, fun n => ?_⟩
  calc exec (σ n) (s n)
      = execAll [σ n] (s n) := (execAll_singleton ..).symm
    _ = execAll ((List.range n).map σ ++ [σ n]) s₀ := (execAll_append_of_next (hs n)).symm
    _ = execAll ((List.range (n + 1)).map σ) s₀ := by rw [List.range_succ, List.map_append, List.map_singleton]
    _ = .next (s (n + 1)) := hs (n + 1)

/-- Settles O51: no event is blocked, so the finite stretches of a stream complete and make up its run. -/
theorem blockNeverBlocksALegalEvent : Obligations.BlockNeverBlocksALegalEvent :=
  ⟨exec_enabled, exists_isRun⟩

end Sys2Proof.Machine
end

section
/-! PROOFS. The statements of 70_reset_and_hazards.md: power-on (O13), the reset state with the default parameters (O15),
and the gate's two time hazards, aliasing and the window after reset (O20). -/

namespace Sys2Proof.Machine

open Sys2Proof

/-! ## Power-on (R150) -/

/-- Parameters that meet their constraints are not refused, and the run starts in the reset state. -/
theorem powerOn_of_configuration (c : Configuration) : powerOn c.params = .next (State.afterReset c) :=
  dif_pos c.valid

/-- Settles O13: power-on, RESET and the start of a run all give the state after reset of the same configuration. -/
theorem powerOnEqualsReset : Obligations.PowerOnEqualsReset := by
  intro s
  exact ⟨State.afterReset s.config, powerOn_of_configuration s.config, exec_reset s, rfl⟩

/-! ## The reset state (R152) -/

theorem State.afterReset_dir (c : Configuration) (d : Dir) :
    (State.afterReset c).dir d = DirState.afterReset c.params := by
  cases d <;> rfl

/-- The status view shows no register whose reset value is a parameter, so its word after reset is the same in every
configuration. -/
theorem statusWord_afterReset (c : Configuration) : statusWord (State.afterReset c) = 0x00002100#32 := by
  simp only [statusWord, State.afterReset, DirState.afterReset]
  decide

/-- Settles O15: of the reset values only `last` and `remaining` read the parameters, and neither reads an OPEN one. -/
theorem resetStateWithDefaultParameters : Obligations.ResetStateWithDefaultParameters := by
  intro threshold scale h
  exact ⟨State.afterReset_dir _, rfl, rfl, rfl, rfl, rfl, statusWord_afterReset _⟩

/-! ## The gate's time hazards (R156) -/

/-- Settles O20: an edge is decided by the elapsed time modulo `2^CNT_W`; the first edge after reset is one that O19 decides,
with the reset value of `last` for the last acceptance. -/
theorem gateAliasesLongTimesAndHasAPostResetWindow : Obligations.GateAliasesLongTimesAndHasAPostResetWindow := by
  constructor
  · intro s d E hl
    obtain ⟨t, ht⟩ := exec_enabled (.service d ((s.dir d).last + E)) s
    refine ⟨t, ht, ?_⟩
    rw [exec_service_out_of_latch ht hl, elapsed_add]
  · intro c d k hk
    obtain ⟨u, hu⟩ := exec_enabled (.sense d true) (State.afterReset c)
    have hdir : u.dir d = (DirState.afterReset c.params).sample true := by
      rw [exec_sense_dir hu, State.afterReset_dir]
    have hlatch : (u.dir d).latch = true := hdir ▸ DirState.sample_latch_of_rising rfl
    have hlast : (u.dir d).last = c.params.lastAcceptedReset := congrArg DirState.last hdir
    have hparams : u.params = c.params := exec_params hu
    obtain ⟨t, ht, hout⟩ := edgeIsAcceptedExactlyBeyondTheThreshold u d k hlatch (hparams ▸ hk)
    rw [hlast] at ht
    rw [hparams] at hout
    exact ⟨t, by rw [execAll_cons_of_next hu, execAll_singleton, ht], hout⟩

end Sys2Proof.Machine
end
